-- ==== Sys2Proof/Word.lean ====
section
/-! DEFINITION. The bit-vector types of the spec's u8, u16 and u32 values (00_scope.md R9). -/

namespace Sys2Proof

/-- u8: a byte of a buffer, of a payload, of a response (R9). -/
abbrev Byte := BitVec 8

/-- u16: the N of a WRITE, the MAX of a READ, the count of a response (R86, R87, R89). -/
abbrev Half := BitVec 16

/-- u32 or s32: a header word or an operand word (R81, R85). -/
abbrev Word := BitVec 32

end Sys2Proof
end

