-- ==== Sys2Proof/Config.lean ====
section
/-! DEFINITION. The constants fixed for every instance (00_scope.md R7) and the parameters of an instance (R6). -/

namespace Sys2Proof.Config

/-- `PERIOD_NUM`: microseconds per second (R7). One tick is one of them (`TICK_US` = 1). -/
abbrev periodNum : Nat := 1000000

/-- `IDLE_LEVEL`: the idle line is held high (R7). -/
abbrev idleLevel : Bool := true

/-- The level of the one start bit (`START_BITS`, R7). -/
abbrev startLevel : Bool := false

/-- The level of the one stop bit (`STOP_BITS`, R7). -/
abbrev stopLevel : Bool := true

/-- What varies between instances of the block, and nothing else does (R6). -/
structure Params where
  /-- capacity of the transmit buffer -/
  TX_CAP : Nat
  /-- capacity of the receive buffer -/
  RX_CAP : Nat
  /-- whether a falling edge seen while edge delivery is off is kept (R162, decision D15) -/
  EDGE_LATCH_WHILE_MASKED : Bool
deriving DecidableEq, Repr

/-- The legal values of the parameters (R6, decision D7). -/
abbrev Params.Legal (p : Params) : Prop :=
  (1 ≤ p.TX_CAP ∧ p.TX_CAP ≤ 65535) ∧ (1 ≤ p.RX_CAP ∧ p.RX_CAP ≤ 65535)

/-- The reference sizing of R6's table. -/
def Params.reference : Params :=
  { TX_CAP := 256, RX_CAP := 256, EDGE_LATCH_WHILE_MASKED := false }

end Sys2Proof.Config
end

