-- ==== Sys2Proof/Syntax.lean ====
section
/-! DEFINITION. The five steps of the block as syntax (30_encoding.md R83), the step word that carries one (R81) and
what the environment supplies with it. -/

namespace Sys2Proof

/-- One constructor for each row of the opcode table: the TICK of the time base and the four host commands (R83). -/
inductive Instr where
  /-- TICK: the level of `rx_in` and the two scheduling-fault inputs of this tick (R84). -/
  | tick (rx ftx frx : Bool)
  /-- CONFIGURE: its seven operand words W1..W7, the last four reserved (R85). -/
  | configure (txPin rxPin baud dataBits stopBits parity inverted : Word)
  /-- WRITE: the number of payload bytes and the payload (R86). -/
  | write (n : Half) (payload : List Byte)
  /-- READ: `maxBytes` (R87). -/
  | read (max : Half)
  /-- TEARDOWN (R88). -/
  | teardown
deriving DecidableEq, Repr

/-- A step as it is given to the block: the header word, the operand words and the payload bytes (R81). -/
structure StepWord where
  header   : Word
  operands : List Word
  payload  : List Byte
deriving DecidableEq, Repr

/-- A step word and the collaborator's answers that travel beside it, encoded in no word (R81, R190). -/
structure StepInput where
  word   : StepWord
  acqOk  : Bool
  xferOk : Bool
deriving DecidableEq, Repr

/-- Why the decoder refuses a step word (R93). -/
inductive DecodeError where
  /-- the words spell no operation (R91) -/
  | reserved
  /-- wrong number of operand words or payload bytes (R92) -/
  | malformed
deriving DecidableEq, Repr

end Sys2Proof
end

