-- ==== Sys2Proof/Machine/State.lean ====
section
/-! DEFINITION. The state of one block instance (10_state.md R20-R52), with the spec's own field names, and its reset.
Counters and cursors are naturals, as R10 has their arithmetic; that none exceeds its stated width is an invariant (R50). -/

namespace Sys2Proof.Machine

/-- A byte buffer: its cells that hold a specified byte, by index, strictly rising. A cell not listed has no specified
contents (20_memory.md R75). -/
abbrev Memory := List Host.Cell

/-- The session state (R21). Encoding 3 is never held, so it has no constructor. -/
inductive Sess where
  | unconfigured
  | configured
  | faulted
deriving DecidableEq, Repr

/-- The action of the next transmit callback (R31). Encodings 10..15 are never held, so they have no constructor. -/
inductive TxPos where
  | start
  | data (k : Fin 8)
  | stop
deriving DecidableEq, Repr

/-- The status of a response (30_encoding.md R90). -/
inductive Status where
  | ok
  | invalidConfiguration
  | resourceUnavailable
  | bufferOverflow
  | transferFault
  | schedulingFault
deriving DecidableEq, Repr

/-- `respond(status, count, data)` (R89). -/
structure Response where
  status : Status
  count  : Half
  data   : List Byte
deriving DecidableEq, Repr

/-- The state of one instance. -/
structure State where
  /-- parameters of the instance (R6), never written -/
  params : Config.Params
  /-- session state (R21) -/
  sess : Sess
  /-- transmit pin id, s32 (R22) -/
  cfg_tx_pin : Word
  /-- receive pin id, s32 (R23) -/
  cfg_rx_pin : Word
  /-- baud rate, s32 (R24) -/
  cfg_baud : Word
  /-- bit period P in ticks, u20 (R26) -/
  bit_period : Nat
  /-- a transmission is running (R30) -/
  tx_busy : Bool
  /-- action of the next transmit callback (R31) -/
  tx_pos : TxPos
  /-- transmit buffer (R32) -/
  TXB : Memory
  /-- bytes queued in this run, sent ones included, u16 (R33) -/
  tx_len : Nat
  /-- read cursor, u16 (R34) -/
  tx_rd : Nat
  /-- byte being shifted out (R35) -/
  tx_shift : Byte
  /-- transmit timer armed (R36) -/
  tx_armed : Bool
  /-- transmit timer count, u20 (R36) -/
  tx_cnt : Nat
  /-- level on the transmit pin (R37) -/
  tx_out : Bool
  /-- output enable of the transmit pin (R37) -/
  tx_oe : Bool
  /-- receive buffer (R40) -/
  RXB : Memory
  /-- valid bytes in RXB, u16 (R41) -/
  rx_len : Nat
  /-- accumulator of the byte in progress (R42) -/
  rx_acc : Byte
  /-- data bits sampled so far, u3 (R42) -/
  rx_count : Fin 8
  /-- edge delivery enabled (R43) -/
  edge_en : Bool
  /-- receive timer armed (R44) -/
  rx_armed : Bool
  /-- receive timer count, u20 (R44) -/
  rx_cnt : Nat
  /-- level of rx_in at the previous tick (R45) -/
  rx_prev : Bool
  /-- rx_prev holds a sample of this session (R45) -/
  rx_prev_valid : Bool
  /-- a falling edge seen while edge delivery was off (R46) -/
  edge_pending : Bool
  /-- a scheduling fault has happened since reset (R48) -/
  sched_fault_seen : Bool
  /-- port: the steps given to the block and not yet taken, oldest first (R81) -/
  input : List StepInput
  /-- port: the draw of a CONFIGURE (R80, R192) -/
  acq_ok : Bool
  /-- port: the draw of a WRITE or a READ (R80, R196, R200) -/
  xfer_ok : Bool
  /-- port: the response produced by the step just taken (R80, R89) -/
  rsp : Option Response
deriving DecidableEq, Repr

/-- Where the model stops outside the spec's two outcomes (R11). No state reachable from reset raises one (R50, R61). -/
inductive Fault where
  /-- A buffer index at or above the capacity: the cell does not exist (R60). Raised by the Start callback and by READ.
  Safe: the machine stops where the spec describes no access. -/
  | noSuchCell
  /-- A read of a cell whose contents are unspecified (R75). Raised by the Start callback and by READ.
  Safe: the spec says no rule reads such a cell. -/
  | unspecifiedCell
deriving DecidableEq, Repr

/-- The reasons of a refused step (60_exceptions.md R236). Each is safe: it errs toward unprovable, as the spec says. -/
inductive Refusal where
  /-- The model's own: exec has no meaning for this mnemonic. Raised by exec only. Safe. -/
  | notModelled (mnemonic : String)
  /-- Raised by step when the head of the input spells no operation (R91). Safe. -/
  | reservedEncoding
  /-- Raised by step when the head of the input has the wrong length, and by the meaning of an ill-formed WRITE (R92). Safe. -/
  | malformedCommand
  /-- Raised by WRITE and READ while Unconfigured (R195, R198). Safe. -/
  | notConfigured
  /-- Raised by CONFIGURE while Configured or Faulted (R191). Safe. -/
  | alreadyConfigured
  /-- Raised by CONFIGURE with B > 1,000,000 (R102). Safe. -/
  | zeroBitPeriod
deriving DecidableEq, Repr

/-- What a step of this machine ends in. -/
abbrev Result := Host.Outcome State Fault Refusal

/-- The state after reset of an instance with parameters `p`: the "after reset" column of R51; no cell of TXB or RXB
has specified contents. The ports `input`, `acq_ok`, `xfer_ok` and `rsp` are the model's own
(DESIGN CHOICE, log entries 2, 4 and 5). -/
def State.resetWith (p : Config.Params) : State where
  params := p
  sess := .unconfigured
  cfg_tx_pin := 0
  cfg_rx_pin := 0
  cfg_baud := 0
  bit_period := 0
  tx_busy := false
  tx_pos := .start
  TXB := []
  tx_len := 0
  tx_rd := 0
  tx_shift := 0
  tx_armed := false
  tx_cnt := 0
  tx_out := true
  tx_oe := false
  RXB := []
  rx_len := 0
  rx_acc := 0
  rx_count := 0
  edge_en := false
  rx_armed := false
  rx_cnt := 0
  rx_prev := true
  rx_prev_valid := false
  edge_pending := false
  sched_fault_seen := false
  input := []
  acq_ok := true
  xfer_ok := true
  rsp := none

/-- The machine right after reset, in the reference sizing of R6 (DESIGN CHOICE, log entry 1). -/
def State.reset : State := State.resetWith Config.Params.reference

end Sys2Proof.Machine
end

