-- ==== Sys2Proof/Machine/BitTiming.lean ====
section
/-! DEFINITION. The bit-timing clock (40_bit_timing_clock.md R100-R104). -/

namespace Sys2Proof.Machine

/-- The answers of BitPeriod (R100). -/
inductive Period where
  /-- B ≤ 0 (R101) -/
  | invalid
  /-- B > 1,000,000, so P would be 0 (R102) -/
  | zero
  /-- P ticks a bit -/
  | ticks (p : Nat)
deriving DecidableEq, Repr

/-- `BitPeriod(B)`: 1,000,000 div B, truncating (R100). -/
def bitPeriod (b : Int) : Period :=
  if b ≤ 0 then .invalid
  else if Config.periodNum / b.toNat = 0 then .zero
  else .ticks (Config.periodNum / b.toNat)

end Sys2Proof.Machine
end

