-- ==== Sys2Proof/Machine/Flags.lean ====
section
/-! DEFINITION. The conditions the steps test on the one-bit fields (10_state.md R52), the named engine states (R49)
and the numbers the spec gives the states and the statuses (R21, R31, R90). -/

namespace Sys2Proof.Machine

/-- A falling edge: `rx_prev_valid = 1 and rx_prev = 1 and rx = 0` (42_receive.md R160). -/
def fall (pre : State) (rx : Bool) : Bool := pre.rx_prev_valid && pre.rx_prev && !rx

/-- The edge event runs in this tick (R161). -/
def edgeTaken (pre : State) (rx : Bool) : Bool := pre.edge_en && (fall pre rx || pre.edge_pending)

/-- A falling edge is kept while edge delivery is off (R162). -/
def edgeLatched (pre : State) (rx : Bool) : Bool :=
  !pre.edge_en && fall pre rx && pre.params.EDGE_LATCH_WHILE_MASKED

/-- The transmit timer fires in this tick (40_bit_timing_clock.md R106). -/
def txFires (pre : State) : Bool := pre.tx_armed && decide (pre.tx_cnt = 1)

/-- The receive timer fires in this tick (R106). -/
def rxFires (pre : State) : Bool := pre.rx_armed && decide (pre.rx_cnt = 1)

/-- A scheduling fault takes this tick: a fault input whose timer is armed (R112). -/
def schedFault (pre : State) (ftx frx : Bool) : Bool := (ftx && pre.tx_armed) || (frx && pre.rx_armed)

/-- The level an observer of the transmit pin may rely on: none while it is released (R37). -/
def pinLevel (s : State) : Option Bool := if s.tx_oe then some s.tx_out else none

/-- The named states of the transmit engine (R49). -/
inductive TxPhase where
  | idle
  | armedForStart
  | shiftingBit (k : Fin 8)
  | stopBit
deriving DecidableEq, Repr

/-- The named states of the receive engine; Committing is never a stored state (R49). -/
inductive RxPhase where
  | idle
  | armedForFirstBit
  | samplingBit (k : Fin 8)
deriving DecidableEq, Repr

/-- R49, rows TX; meant while Configured. -/
def txPhase (s : State) : TxPhase :=
  if s.tx_busy then
    match s.tx_pos with
    | .start => .armedForStart
    | .data k => .shiftingBit k
    | .stop => .stopBit
  else .idle

/-- R49, rows RX; meant while Configured. -/
def rxPhase (s : State) : RxPhase :=
  if s.rx_armed then
    if s.rx_count = 0 then .armedForFirstBit else .samplingBit s.rx_count
  else .idle

/-- The 2-bit encoding of the session state (R21). -/
def sessCode : Sess → BitVec 2
  | .unconfigured => 0
  | .configured => 1
  | .faulted => 2

/-- The 4-bit encoding of the transmit position: Start 0, Data k = k+1, Stop 9 (R31). -/
def txPosCode : TxPos → BitVec 4
  | .start => 0
  | .data k => BitVec.ofNat 4 (k.val + 1)
  | .stop => 9

/-- The u8 status codes (30_encoding.md R90). -/
def statusCode : Status → Byte
  | .ok => 0
  | .invalidConfiguration => 1
  | .resourceUnavailable => 2
  | .bufferOverflow => 3
  | .transferFault => 4
  | .schedulingFault => 5

end Sys2Proof.Machine
end

