-- ==== Sys2Proof/Machine/Operands.lean ====
section
/-! DEFINITION. How the operands of the commands are read (30_encoding.md R85-R87). -/

namespace Sys2Proof.Machine

/-- An operand word read as s32 (R85). -/
def signed (w : Word) : Int := w.toInt

/-- The pins of a CONFIGURE are non-negative and distinct (43_session.md R191). -/
def pinsValid (txPin rxPin : Word) : Bool :=
  decide (0 ≤ signed txPin) && decide (0 ≤ signed rxPin) && decide (txPin ≠ rxPin)

/-- The number of bytes a WRITE names (R86). -/
def writeCount (n : Half) : Nat := n.toNat

/-- k of a READ: `min(MAX, rx_len)` (R198). -/
def readCount (max : Half) (rxLen : Nat) : Nat := min max.toNat rxLen

/-- A count as the u16 a response carries (R89). -/
def countOf (k : Nat) : Half := BitVec.ofNat 16 k

/-- A pin level as a byte with the level in bit 0. -/
def levelByte (level : Bool) : Byte := if level then 1 else 0

end Sys2Proof.Machine
end

