-- ==== Sys2Proof/WellFormed.lean ====
section
/-! DEFINITION. Which instructions can be spelled: a WRITE carries exactly N payload bytes (30_encoding.md R86, R92).
Every other operand is a field whose type has no value the encoding lacks. -/

namespace Sys2Proof

/-- The payload of a WRITE has exactly N bytes (R92); the other commands have nothing to check. -/
def Instr.wellFormed : Instr → Bool
  | .tick _ _ _ => true
  | .configure _ _ _ _ _ _ _ => true
  | .write n payload => payload.length == n.toNat
  | .read _ => true
  | .teardown => true

/-- The check as a proposition. -/
abbrev Instr.WellFormed (i : Instr) : Prop := i.wellFormed = true

end Sys2Proof
end

