-- ==== Sys2Proof/Decode.lean ====
section
/-! DEFINITION. The decoder of 30_encoding.md R93, total on any header, operand list and payload list, the encoder
beside it, and the little-endian byte transport of a step word (R94, R97). -/

namespace Sys2Proof

/-! Fields of a header word (R82, R84-R88). -/

/-- OP, bits [31:28] (R82). -/
def opField (h : Word) : BitVec 4 := h.extractLsb' 28 4

/-- ARG, bits [27:0] (R82). -/
def argField (h : Word) : BitVec 28 := h.extractLsb' 0 28

/-- The reserved bits [27:3] of a TICK (R84). -/
def tickReserved (h : Word) : BitVec 25 := h.extractLsb' 3 25

/-- The reserved bits [27:16] of a WRITE or a READ (R86, R87). -/
def countReserved (h : Word) : BitVec 12 := h.extractLsb' 16 12

/-- N of a WRITE or MAX of a READ, bits [15:0] (R86, R87). -/
def countField (h : Word) : Half := h.extractLsb' 0 16

/-! Decoding, one function for each opcode (R93). -/

/-- R93, row 0x0. -/
def decodeTick (w : StepWord) : Except DecodeError Instr :=
  if tickReserved w.header ≠ 0#25 then .error .reserved
  else if w.operands ≠ [] ∨ w.payload ≠ [] then .error .malformed
  else .ok (.tick (w.header.getLsbD 0) (w.header.getLsbD 1) (w.header.getLsbD 2))

/-- R93, row 0x1. -/
def decodeConfigure (w : StepWord) : Except DecodeError Instr :=
  if argField w.header ≠ 0#28 then .error .reserved
  else
    match w.operands, w.payload with
    | [w1, w2, w3, w4, w5, w6, w7], [] => .ok (.configure w1 w2 w3 w4 w5 w6 w7)
    | _, _ => .error .malformed

/-- R93, row 0x2. -/
def decodeWrite (w : StepWord) : Except DecodeError Instr :=
  if countReserved w.header ≠ 0#12 then .error .reserved
  else if w.operands ≠ [] ∨ w.payload.length ≠ (countField w.header).toNat then .error .malformed
  else .ok (.write (countField w.header) w.payload)

/-- R93, row 0x3. -/
def decodeRead (w : StepWord) : Except DecodeError Instr :=
  if countReserved w.header ≠ 0#12 then .error .reserved
  else if w.operands ≠ [] ∨ w.payload ≠ [] then .error .malformed
  else .ok (.read (countField w.header))

/-- R93, row 0x4. -/
def decodeTeardown (w : StepWord) : Except DecodeError Instr :=
  if argField w.header ≠ 0#28 then .error .reserved
  else if w.operands ≠ [] ∨ w.payload ≠ [] then .error .malformed
  else .ok .teardown

/-- The decoder (R93); opcodes 0x5..0xF are reserved (R91). -/
def decode (w : StepWord) : Except DecodeError Instr :=
  if opField w.header = 0x0#4 then decodeTick w
  else if opField w.header = 0x1#4 then decodeConfigure w
  else if opField w.header = 0x2#4 then decodeWrite w
  else if opField w.header = 0x3#4 then decodeRead w
  else if opField w.header = 0x4#4 then decodeTeardown w
  else .error .reserved

/-! Encoding (R84-R88). -/

/-- The header of a TICK (R84). -/
def tickHeader (rx ftx frx : Bool) : Word :=
  0x0#4 ++ 0#25 ++ BitVec.ofBool frx ++ BitVec.ofBool ftx ++ BitVec.ofBool rx

/-- The header of a step whose ARG is 0 (R85, R88). -/
def plainHeader (op : BitVec 4) : Word := op ++ 0#28

/-- The header of a WRITE or a READ (R86, R87). -/
def countHeader (op : BitVec 4) (n : Half) : Word := op ++ 0#12 ++ n

/-- The step word of an instruction. -/
def encode : Instr → StepWord
  | .tick rx ftx frx => ⟨tickHeader rx ftx frx, [], []⟩
  | .configure w1 w2 w3 w4 w5 w6 w7 => ⟨plainHeader 0x1#4, [w1, w2, w3, w4, w5, w6, w7], []⟩
  | .write n payload => ⟨countHeader 0x2#4 n, [], payload⟩
  | .read max => ⟨countHeader 0x3#4 max, [], []⟩
  | .teardown => ⟨plainHeader 0x4#4, [], []⟩

/-! A step word as bytes (R94, R97). -/

/-- How many operand words follow a header: the opcode alone fixes it (R94). -/
def operandWords (h : Word) : Nat := if opField h = 0x1#4 then 7 else 0

/-- How many payload bytes follow: the N of a WRITE alone fixes it (R94). -/
def payloadBytes (h : Word) : Nat := if opField h = 0x2#4 then (countField h).toNat else 0

/-- A 32-bit word as bytes, bits [7:0] first (R97). -/
def wordBytes (w : Word) : List Byte :=
  [w.extractLsb' 0 8, w.extractLsb' 8 8, w.extractLsb' 16 8, w.extractLsb' 24 8]

/-- The word whose bytes are these, lowest first (R97). -/
def bytesWord (b0 b1 b2 b3 : Byte) : Word := b3 ++ b2 ++ b1 ++ b0

/-- A step word on a byte transport: header, operand words, payload bytes, no padding (R97). -/
def serialize (w : StepWord) : List Byte :=
  wordBytes w.header ++ w.operands.flatMap wordBytes ++ w.payload

/-- Takes `n` words off a byte stream. -/
def takeWords : Nat → List Byte → Option (List Word × List Byte)
  | 0, bs => some ([], bs)
  | n + 1, b0 :: b1 :: b2 :: b3 :: bs =>
    match takeWords n bs with
    | some (ws, rest) => some (bytesWord b0 b1 b2 b3 :: ws, rest)
    | none => none
  | _ + 1, _ => none

/-- Takes `n` bytes off a byte stream. -/
def takeBytes : Nat → List Byte → Option (List Byte × List Byte)
  | 0, bs => some ([], bs)
  | n + 1, b :: bs =>
    match takeBytes n bs with
    | some (front, rest) => some (b :: front, rest)
    | none => none
  | _ + 1, [] => none

/-- Reads one step word off a byte stream; none where the stream ends inside it (R94). -/
def parse (bs : List Byte) : Option (StepWord × List Byte) :=
  match takeWords 1 bs with
  | some ([h], afterHeader) =>
    match takeWords (operandWords h) afterHeader with
    | some (ops, afterOperands) =>
      match takeBytes (payloadBytes h) afterOperands with
      | some (payload, rest) => some (⟨h, ops, payload⟩, rest)
      | none => none
    | none => none
  | _ => none

/-! The opcode table's numbering of an instruction's bits: bit 0 is the least significant bit of the header. -/

/-- The `n` lowest bytes of a number, lowest first. -/
def natBytes : Nat → Nat → List Byte
  | 0, _ => []
  | n + 1, v => BitVec.ofNat 8 v :: natBytes n (v / 256)

/-- The bytes of the instruction whose bits are `w`, as a transport stores them; bits above `nbits` are 0. -/
def tableBytes (nbits w : Nat) : List Byte :=
  let v := w % 2 ^ nbits
  let h := BitVec.ofNat 32 v
  natBytes (4 + 4 * operandWords h + payloadBytes h) v

/-- The step word those bytes spell. -/
def tableStepWord (nbits w : Nat) : StepWord :=
  match parse (tableBytes nbits w) with
  | some (sw, _) => sw
  | none => ⟨BitVec.ofNat 32 (w % 2 ^ nbits), [], []⟩

/-- What the decoder reads from an instruction whose bits are `w`. -/
def decodeTableWord (nbits w : Nat) : Option Instr :=
  match decode (tableStepWord nbits w) with
  | .ok i => some i
  | .error _ => none

end Sys2Proof
end

