-- ==== Sys2Proof/Machine/Ops.lean ====
section
/-! DEFINITION. The named operations the meanings share: buffer cells (00_scope.md R10), responses, timers, the
scheduling-fault entry and the way out of it, and taking a step from the input. An operation with two states reads
`pre`, the state before the step, and writes into `t` (R10, 40_bit_timing_clock.md R113). -/

namespace Sys2Proof.Machine

/-! Buffer cells. -/

/-- The specified contents of a cell, if it has any. -/
def Memory.read : Memory → Nat → Option Byte
  | [], _ => none
  | (a, b) :: m, i => if a = i then some b else Memory.read m i

/-- `MemWrite(·, i, 1, v)` (R10), keeping the indices strictly rising. -/
def Memory.write : Memory → Nat → Byte → Memory
  | [], i, v => [(i, v)]
  | (a, b) :: m, i, v =>
    if i < a then (i, v) :: (a, b) :: m
    else if i = a then (i, v) :: m
    else (a, b) :: Memory.write m i v

/-- The canonical form: indices strictly rising. An unlisted cell reads as no value, so no entry is redundant. -/
abbrev Memory.wf (m : Memory) : Prop := m.Pairwise (fun c d => c.1 < d.1)

/-- `MemRead(·, i, 1)` of a buffer with `cap` cells (R10). -/
def loadCell (cap : Nat) (m : Memory) (i : Nat) : Except Fault Byte :=
  if i < cap then
    match Memory.read m i with
    | some b => .ok b
    | none => .error .unspecifiedCell
  else .error .noSuchCell

/-- The `count` cells from `start` on, lowest index first. -/
def loadCells (cap : Nat) (m : Memory) : (start count : Nat) → Except Fault (List Byte)
  | _, 0 => .ok []
  | start, n + 1 =>
    match loadCell cap m start with
    | .error f => .error f
    | .ok b =>
      match loadCells cap m (start + 1) n with
      | .error f => .error f
      | .ok bs => .ok (b :: bs)

/-- Writes the bytes to the cells from `start` on, in order (R61). -/
def storeCells : Memory → Nat → List Byte → Memory
  | m, _, [] => m
  | m, start, b :: bs => storeCells (Memory.write m start b) (start + 1) bs

/-- The `count` cells from `start` on lose their contents: they become unspecified (R75, R199). -/
def eraseCells (m : Memory) (start count : Nat) : Memory :=
  m.filter (fun c => decide (c.1 < start) || decide (start + count ≤ c.1))

/-! Responses (30_encoding.md R89). -/

/-- `respond(status, count, data)`. -/
def respond (status : Status) (count : Half) (data : List Byte) (t : State) : State :=
  { t with rsp := some { status := status, count := count, data := data } }

/-- A TICK produces no response (R89). -/
def noResponse (t : State) : State := { t with rsp := none }

/-- The outcome of an operation that may meet a cell it cannot read. -/
def outcomeOf : Except Fault State → Result
  | .ok t => .next t
  | .error f => .fault f

/-! Timers (40_bit_timing_clock.md R105, R107). -/

/-- `arm(tx)` (R105). -/
def armTx (pre t : State) : State := { t with tx_armed := true, tx_cnt := pre.bit_period }

/-- `arm(rx)` (R105). -/
def armRx (pre t : State) : State := { t with rx_armed := true, rx_cnt := pre.bit_period }

/-- `cancel(tx)`: the count is left as it is (R107). -/
def cancelTx (t : State) : State := { t with tx_armed := false }

/-- `cancel(rx)` (R107). -/
def cancelRx (t : State) : State := { t with rx_armed := false }

/-! The scheduling fault, the block's one exception (60_exceptions.md R240), and the return from it. -/

/-- `FaultEntry` (R240). -/
def faultEntry (t : State) : State :=
  { cancelRx (cancelTx t) with
    sess := .faulted
    edge_en := false
    edge_pending := false
    sched_fault_seen := true }

/-- The first part of TEARDOWN: both timers and edge delivery go off (43_session.md R202, R204). -/
def quiesce (t : State) : State := { cancelRx (cancelTx t) with edge_en := false }

/-- The second part: both pins and the interrupt line are released (R202). -/
def releasePins (t : State) : State := { t with tx_oe := false }

/-- The third part: every field but TXB, RXB and sched_fault_seen takes its "after TEARDOWN" value (R51, R202).
The parameters and the ports are not fields of the block's record. -/
def discardSession (t : State) : State :=
  { State.resetWith t.params with
    TXB := t.TXB
    RXB := t.RXB
    sched_fault_seen := t.sched_fault_seen
    input := t.input
    acq_ok := t.acq_ok
    xfer_ok := t.xfer_ok
    rsp := t.rsp }

/-- The body of TEARDOWN in the order R204 makes mandatory; the only way out of Faulted but reset (R241). -/
def endSession (t : State) : State := discardSession (releasePins (quiesce t))

/-! Reset. -/

/-- Asserting `rst`, from any state: a new run begins in the reset state of the same instance (70_reset_and_hazards.md
R270). It is no step of a run and has no response. -/
def State.assertRst (s : State) : State := State.resetWith s.params

/-! Taking a step from the input ports. -/

/-- The refusal a decoder's answer leads to (R93). -/
def refusalOf : DecodeError → Refusal
  | .reserved => .reservedEncoding
  | .malformed => .malformedCommand

/-- The ports as the step `p` finds them: `p` is taken from the input and its draws stand beside it (R81). -/
def State.accept (s : State) (p : StepInput) (rest : List StepInput) : State :=
  { s with input := rest, acq_ok := p.acqOk, xfer_ok := p.xferOk }

/-- The oldest step not yet taken, decoded, and the state it runs in; none where the input is empty. -/
def fetch (s : State) : Option (Except DecodeError Instr × State) :=
  match s.input with
  | [] => none
  | p :: rest => some (decode p.word, s.accept p rest)

/-- A block with nothing to take waits (70_reset_and_hazards.md R271; DESIGN CHOICE, log entry 3). -/
def waitForInput (s : State) : State := noResponse s

/-- The input with one step, every draw 1 (R95), put before the steps already there. -/
def State.pushStep (s : State) (w : StepWord) : State :=
  { s with input := { word := w, acqOk := true, xferOk := true } :: s.input }

end Sys2Proof.Machine
end

