-- ==== Sys2Proof/Machine/Receive.lean ====
section
/-! DEFINITION. The receive engine: the edge step (42_receive.md R160-R162), the sample callback and the commit
(R164-R166), the previous-sample update (R167) and the drain of a READ (43_session.md R199). -/

namespace Sys2Proof.Machine

/-- The edge event: edge delivery off, the byte in progress cleared, the sample timer armed (R161). -/
def edgeEvent (pre t : State) : State :=
  armRx pre { t with edge_en := false, rx_acc := 0, rx_count := 0, edge_pending := false }

/-- `EdgeStep(rx)` (R160-R162). -/
def edgeStep (pre : State) (rx : Bool) (t : State) : State :=
  if edgeTaken pre rx then edgeEvent pre t
  else if edgeLatched pre rx then { t with edge_pending := true }
  else t

/-- `((acc >> 1) | (sample << 7))[7:0]` (R164). -/
def shiftIn (acc : Byte) (sample : Bool) : Byte := (acc >>> 1) ||| (levelByte sample <<< 7)

/-- The commit of a completed byte: appended where there is room (R165), dropped where there is none (R166). -/
def rxCommit (pre : State) (b : Byte) (t : State) : State :=
  let t := { t with rx_acc := 0, rx_count := 0, edge_en := true }
  if pre.rx_len < pre.params.RX_CAP then
    cancelRx { t with RXB := Memory.write pre.RXB pre.rx_len b, rx_len := pre.rx_len + 1 }
  else cancelRx t

/-- `RXSample(sample)`: one of the first seven bits, or the eighth and the commit (R164-R166). -/
def rxSample (pre : State) (sample : Bool) (t : State) : State :=
  if h : pre.rx_count.val + 1 < 8 then
    armRx pre { t with rx_acc := shiftIn pre.rx_acc sample, rx_count := ⟨pre.rx_count.val + 1, h⟩ }
  else rxCommit pre (shiftIn pre.rx_acc sample) t

/-- `TimerStep(rx)`: fire or count down (40_bit_timing_clock.md R106). -/
def rxTimerStep (pre : State) (sample : Bool) (t : State) : State :=
  if rxFires pre then rxSample pre sample t
  else if pre.rx_armed then { t with rx_cnt := pre.rx_cnt - 1 }
  else t

/-- The previous-sample update (R167). -/
def prevUpdate (rx : Bool) (t : State) : State := { t with rx_prev := rx, rx_prev_valid := true }

/-- READ of k bytes: the k oldest bytes, and the state with the rest moved to the front and the vacated cells
unspecified (R198, R199, 20_memory.md R75). -/
def drain (k : Nat) (s : State) : Except Fault (List Byte × State) :=
  match loadCells s.params.RX_CAP s.RXB 0 k with
  | .error f => .error f
  | .ok data =>
    match loadCells s.params.RX_CAP s.RXB k (s.rx_len - k) with
    | .error f => .error f
    | .ok rest =>
      .ok (data,
        { s with
          RXB := eraseCells (storeCells s.RXB 0 rest) (s.rx_len - k) k
          rx_len := s.rx_len - k })

end Sys2Proof.Machine
end

