-- ==== Sys2Proof/Machine/Transmit.lean ====
section
/-! DEFINITION. The transmit engine: ENQUEUE and START (41_transmit.md R130-R134) and the transmit callback at each
position (R135-R137). -/

namespace Sys2Proof.Machine

/-- START: the line idle, the position at the start bit, busy, the timer armed (R134). -/
def txStart (pre t : State) : State :=
  armTx pre { t with tx_out := Config.idleLevel, tx_pos := .start, tx_busy := true }

/-- The append of an accepted WRITE, and START when the engine is idle (R133). -/
def txAppend (payload : List Byte) (s : State) : State :=
  let t := { s with TXB := storeCells s.TXB s.tx_len payload, tx_len := s.tx_len + payload.length }
  if s.tx_busy then t else txStart s t

/-- ENQUEUE: status, count and state, the checks in R130-R133's order. -/
def enqueue (n : Half) (payload : List Byte) (s : State) : Status × Half × State :=
  if writeCount n = 0 then (.ok, 0, s)
  else if s.params.TX_CAP < s.tx_len + writeCount n then (.bufferOverflow, 0, s)
  else if s.xfer_ok then (.ok, n, txAppend payload s)
  else (.transferFault, 0, s)

/-- The position after data bit k (R136). -/
def nextTxPos (k : Fin 8) : TxPos :=
  if h : k.val + 1 < 8 then .data ⟨k.val + 1, h⟩ else .stop

/-- The callback at position Start (R135). -/
def txStartBit (pre t : State) : Except Fault State :=
  match loadCell pre.params.TX_CAP pre.TXB pre.tx_rd with
  | .error f => .error f
  | .ok b => .ok (armTx pre { t with tx_out := Config.startLevel, tx_shift := b, tx_pos := .data 0 })

/-- The callback at position Data k: bit k of the working register, least significant first (R136). -/
def txDataBit (k : Fin 8) (pre t : State) : State :=
  armTx pre { t with tx_out := pre.tx_shift.getLsbD k.val, tx_pos := nextTxPos k }

/-- The callback at position Stop: on to the next queued byte, or the run ends (R137). -/
def txStopBit (pre t : State) : State :=
  let t := { t with tx_out := Config.stopLevel, tx_pos := .start }
  if pre.tx_rd + 1 < pre.tx_len then armTx pre { t with tx_rd := pre.tx_rd + 1 }
  else cancelTx { t with tx_busy := false, tx_rd := 0, tx_len := 0 }

/-- The transmit callback `tx_pos` selects (R135-R137). -/
def txCallback (pre t : State) : Except Fault State :=
  match pre.tx_pos with
  | .start => txStartBit pre t
  | .data k => .ok (txDataBit k pre t)
  | .stop => .ok (txStopBit pre t)

/-- `TimerStep(tx)`: fire or count down (40_bit_timing_clock.md R106). -/
def txTimerStep (pre t : State) : Except Fault State :=
  if txFires pre then txCallback pre t
  else if pre.tx_armed then .ok { t with tx_cnt := pre.tx_cnt - 1 }
  else .ok t

end Sys2Proof.Machine
end

