-- ==== Sys2Proof/Machine/Session.lean ====
section
/-! DEFINITION. The host commands CONFIGURE, WRITE, READ and TEARDOWN (43_session.md R190-R205). -/

namespace Sys2Proof.Machine

/-- `Init(cfg, P)`: TXB, RXB and sched_fault_seen are not written (R193). -/
def initSession (txPin rxPin baud : Word) (p : Nat) (s : State) : State :=
  { s with
    sess := .configured
    cfg_tx_pin := txPin
    cfg_rx_pin := rxPin
    cfg_baud := baud
    bit_period := p
    tx_busy := false
    tx_pos := .start
    tx_len := 0
    tx_rd := 0
    tx_shift := 0
    tx_armed := false
    tx_cnt := 0
    tx_out := Config.idleLevel
    tx_oe := true
    rx_len := 0
    rx_acc := 0
    rx_count := 0
    rx_armed := false
    rx_cnt := 0
    edge_en := true
    rx_prev := true
    rx_prev_valid := false
    edge_pending := false }

/-- CONFIGURE on an Unconfigured session: pins, then acquisition, then baud rate (R191, R192). -/
def configureNew (txPin rxPin baud : Word) (s : State) : Result :=
  if !pinsValid txPin rxPin then .next (respond .invalidConfiguration 0 [] s)
  else if !s.acq_ok then .next (respond .resourceUnavailable 0 [] s)
  else
    match bitPeriod (signed baud) with
    | .invalid => .next (respond .invalidConfiguration 0 [] s)
    | .zero => .refused .zeroBitPeriod
    | .ticks p => .next (respond .ok 0 [] (initSession txPin rxPin baud p s))

/-- CONFIGURE (R191). The four reserved operands are accepted and ignored (R194). -/
def execConfigure (txPin rxPin baud _dataBits _stopBits _parity _inverted : Word) (s : State) : Result :=
  match s.sess with
  | .unconfigured => configureNew txPin rxPin baud s
  | .configured => .refused .alreadyConfigured
  | .faulted => .refused .alreadyConfigured

/-- WRITE (R195). A payload that is not N bytes is malformed (30_encoding.md R92). -/
def execWrite (n : Half) (payload : List Byte) (s : State) : Result :=
  if payload.length ≠ writeCount n then .refused .malformedCommand
  else
    match s.sess with
    | .unconfigured => .refused .notConfigured
    | .faulted => .next (respond .schedulingFault 0 [] s)
    | .configured =>
      match enqueue n payload s with
      | (status, count, t) => .next (respond status count [] t)

/-- READ on a Configured session (R198, R200, R201). -/
def readConfigured (max : Half) (s : State) : Result :=
  if readCount max s.rx_len = 0 then .next (respond .ok 0 [] s)
  else if !s.xfer_ok then .next (respond .transferFault 0 [] s)
  else
    match drain (readCount max s.rx_len) s with
    | .error f => .fault f
    | .ok (data, t) => .next (respond .ok (countOf (readCount max s.rx_len)) data t)

/-- READ (R198). -/
def execRead (max : Half) (s : State) : Result :=
  match s.sess with
  | .unconfigured => .refused .notConfigured
  | .faulted => .next (respond .schedulingFault 0 [] s)
  | .configured => readConfigured max s

/-- TEARDOWN, from every session state (R202, R203). -/
def execTeardown (s : State) : Result :=
  match s.sess with
  | .unconfigured => .next (respond .ok 0 [] s)
  | .configured => .next (respond .ok 0 [] (endSession s))
  | .faulted => .next (respond .ok 0 [] (endSession s))

end Sys2Proof.Machine
end

