-- ==== Sys2Proof/Machine/Tick.lean ====
section
/-! DEFINITION. The TICK step (40_bit_timing_clock.md R110-R113). -/

namespace Sys2Proof.Machine

/-- The four sub-actions of a tick in Configured. Each reads the state before the tick; their writes go into the next
state together (R113). -/
def tickEngines (rx : Bool) (s : State) : Except Fault State :=
  match txTimerStep s (noResponse s) with
  | .error f => .error f
  | .ok t => .ok (prevUpdate rx (edgeStep s rx (rxTimerStep s rx t)))

/-- TICK (R110): nothing outside Configured (R111), the fault entry (R112), or the engines. -/
def execTick (rx ftx frx : Bool) (s : State) : Result :=
  match s.sess with
  | .unconfigured => .next (noResponse s)
  | .faulted => .next (noResponse s)
  | .configured =>
    if schedFault s ftx frx then .next (faultEntry (noResponse s))
    else outcomeOf (tickEngines rx s)

end Sys2Proof.Machine
end

