-- ==== Sys2Proof/Machine/Dispatch.lean ====
section
/-! DEFINITION. One arm for each step of the block (30_encoding.md R83). -/

namespace Sys2Proof.Machine

def exec (i : Instr) (s : State) : Host.Outcome State Fault Refusal :=
  match i with
  | .tick rx ftx frx => Sys2Proof.Machine.execTick rx ftx frx s
  | .configure w1 w2 w3 w4 w5 w6 w7 => Sys2Proof.Machine.execConfigure w1 w2 w3 w4 w5 w6 w7 s
  | .write n payload => Sys2Proof.Machine.execWrite n payload s
  | .read max => Sys2Proof.Machine.execRead max s
  | .teardown => Sys2Proof.Machine.execTeardown s

end Sys2Proof.Machine
end

