-- ==== Sys2Proof/Machine/Step.lean ====
section
/-! DEFINITION. One step of the block: the oldest step of the input is taken, decoded and run (00_scope.md R8,
30_encoding.md R81, R93). -/

namespace Sys2Proof.Machine

/-- One step: a decoded step runs; reserved or malformed words are refused (R91, R92); with no input the block waits
(R271). -/
def step (s : State) : Host.Outcome State Fault Refusal :=
  match fetch s with
  | none => .next (waitForInput s)
  | some (.error e, _) => .refused (refusalOf e)
  | some (.ok i, s') => exec i s'

/-- `s` with the instruction whose bits are `w` as its next step, every draw 1 (log entry 13). -/
def State.withFetchWord (s : State) (nbits w : Nat) : State := s.pushStep (tableStepWord nbits w)

end Sys2Proof.Machine
end

