-- ==== Sys2Proof/Machine/Runs.lean ====
section
/-! DEFINITION. Sequences of steps as the host and the test harness make them (00_scope.md R8, 30_encoding.md R96). -/

namespace Sys2Proof.Machine

/-- The instructions one after another, stopping at the first fault or refusal. -/
def runInstrs : List Instr → State → Result
  | [], s => .next s
  | i :: is, s =>
    match exec i s with
    | .next t => runInstrs is t
    | .fault f => .fault f
    | .refused r => .refused r

/-- A TICK with no scheduling-fault input. -/
def quietTick (rx : Bool) : Instr := .tick rx false false

/-- Ticks with these levels of `rx_in` and no scheduling-fault input. -/
def runTicks (levels : List Bool) (s : State) : Result := runInstrs (levels.map quietTick) s

/-- The level the harness's loopback wire carries: the transmit pin's, or 1 while it is released (R96, decision D34). -/
def loopLevel (s : State) : Bool := (pinLevel s).getD true

/-- `LOOP n` (R96). -/
def runLoop : Nat → State → Result
  | 0, s => .next s
  | n + 1, s =>
    match exec (quietTick (loopLevel s)) s with
    | .next t => runLoop n t
    | .fault f => .fault f
    | .refused r => .refused r

/-- The host gives the block these steps, one at a time, before any step already waiting. -/
def runInputs : List StepInput → State → Result
  | [], s => .next s
  | p :: ps, s =>
    match step { s with input := p :: s.input } with
    | .next t => runInputs ps t
    | .fault f => .fault f
    | .refused r => .refused r

end Sys2Proof.Machine
end

