-- ==== Sys2Proof/Safety.lean ====
section
/-! DEFINITION. The invariants of 10_state.md R50, by session state, and what counts as a safe run (R48, R236). -/

namespace Sys2Proof.Machine

/-- R50 items 1, 2, 7 and 11, which hold while Configured and while Faulted; the configuration that was validated
(R22-R24, R26); every cell below a valid length holds a byte (R61, R75). Item 11 is said of rx_count = 0 as well, where
R161 and R165 leave rx_acc at 0: a step keeps it only in this form. -/
structure SessionInv (s : State) : Prop where
  pins : pinsValid s.cfg_tx_pin s.cfg_rx_pin = true
  baud_pos : 1 ≤ signed s.cfg_baud
  baud_le : signed s.cfg_baud ≤ 1000000
  period : s.bit_period = Config.periodNum / (signed s.cfg_baud).toNat
  period_pos : 1 ≤ s.bit_period
  period_le : s.bit_period ≤ 1000000
  driven : s.tx_oe = true
  pending : s.edge_pending = true → s.params.EDGE_LATCH_WHILE_MASKED = true
  rd_le : s.tx_rd ≤ s.tx_len
  tx_len_le : s.tx_len ≤ s.params.TX_CAP
  rx_len_le : s.rx_len ≤ s.params.RX_CAP
  acc_low : ∀ j, j < 8 - s.rx_count.val → s.rx_acc.getLsbD j = false
  tx_cells : ∀ i, i < s.tx_len → (Memory.read s.TXB i).isSome = true
  rx_cells : ∀ i, i < s.rx_len → (Memory.read s.RXB i).isSome = true

/-- R50 items 3, 4, 5, 6, 8, 9 and 10, which hold while Configured. -/
structure EnginesInv (s : State) : Prop where
  busy_armed : s.tx_busy = s.tx_armed
  idle : s.tx_busy = false → s.tx_len = 0 ∧ s.tx_rd = 0 ∧ s.tx_pos = .start
  queued : s.tx_busy = true → s.tx_rd < s.tx_len
  tx_cnt : s.tx_armed = true → 1 ≤ s.tx_cnt ∧ s.tx_cnt ≤ s.bit_period
  edge : s.edge_en = !s.rx_armed
  rx_idle : s.rx_armed = false → s.rx_count = 0 ∧ s.rx_acc = 0
  rx_cnt : s.rx_armed = true → 1 ≤ s.rx_cnt ∧ s.rx_cnt ≤ s.bit_period

/-- R50, Faulted: no timer and no edge delivery. -/
structure FrozenInv (s : State) : Prop where
  tx_off : s.tx_armed = false
  rx_off : s.rx_armed = false
  edge_off : s.edge_en = false

/-- R50, Unconfigured: every field but TXB, RXB and sched_fault_seen holds its reset value (the parameters and the ports
are no fields of the block's record). -/
abbrev ResetFields (s : State) : Prop := discardSession s = s

/-- The buffers: legal capacities, canonical form, no cell outside the capacity. -/
structure BuffersInv (s : State) : Prop where
  legal : s.params.Legal
  tx_wf : Memory.wf s.TXB
  rx_wf : Memory.wf s.RXB
  tx_below : ∀ i, (Memory.read s.TXB i).isSome = true → i < s.params.TX_CAP
  rx_below : ∀ i, (Memory.read s.RXB i).isSome = true → i < s.params.RX_CAP

/-- The part of the invariant that the session state selects (R50). -/
def BySession (s : State) : Prop :=
  match s.sess with
  | .unconfigured => ResetFields s
  | .configured => SessionInv s ∧ EnginesInv s
  | .faulted => SessionInv s ∧ FrozenInv s

/-- The invariant of every state reachable from reset (R50). -/
def BlockInv (s : State) : Prop := BuffersInv s ∧ BySession s

/-- A safe run of the host's instructions: no step is refused, none faults, and no scheduling fault has been seen at its
end, the premises R236 and R48 give a claim about a run. -/
def SafeRun (is : List Instr) (s : State) : Prop :=
  ∃ t, runInstrs is s = .next t ∧ t.sched_fault_seen = false

/-! What two states agree on, for the frames of the statements. -/

/-- Two buffers read the same at every index. -/
def SameCells (m m' : Memory) : Prop := ∀ a, Memory.read m' a = Memory.read m a

/-- The session and configuration registers agree (R21-R24, R26). -/
def SameSession (s t : State) : Prop :=
  t.sess = s.sess ∧ t.cfg_tx_pin = s.cfg_tx_pin ∧ t.cfg_rx_pin = s.cfg_rx_pin ∧ t.cfg_baud = s.cfg_baud ∧
  t.bit_period = s.bit_period

/-- The transmit registers but the timer count agree, and so does every cell of TXB (R30-R37). -/
def SameTransmitButCount (s t : State) : Prop :=
  t.tx_busy = s.tx_busy ∧ t.tx_pos = s.tx_pos ∧ SameCells s.TXB t.TXB ∧ t.tx_len = s.tx_len ∧ t.tx_rd = s.tx_rd ∧
  t.tx_shift = s.tx_shift ∧ t.tx_armed = s.tx_armed ∧ t.tx_out = s.tx_out ∧ t.tx_oe = s.tx_oe

/-- The whole transmit engine agrees (R30-R37). -/
def SameTransmit (s t : State) : Prop := SameTransmitButCount s t ∧ t.tx_cnt = s.tx_cnt

/-- The receive registers but the timer count and the edge detector's samples agree, and so does every cell of RXB
(R40-R44, R46). -/
def SameReceiveButCount (s t : State) : Prop :=
  SameCells s.RXB t.RXB ∧ t.rx_len = s.rx_len ∧ t.rx_acc = s.rx_acc ∧ t.rx_count = s.rx_count ∧
  t.edge_en = s.edge_en ∧ t.rx_armed = s.rx_armed ∧ t.edge_pending = s.edge_pending

/-- The whole receive engine agrees (R40-R46). -/
def SameReceive (s t : State) : Prop :=
  SameReceiveButCount s t ∧ t.rx_cnt = s.rx_cnt ∧ t.rx_prev = s.rx_prev ∧ t.rx_prev_valid = s.rx_prev_valid

/-- The parameters, the input and the draws agree: no instruction writes them. -/
def SamePorts (s t : State) : Prop :=
  t.params = s.params ∧ t.input = s.input ∧ t.acq_ok = s.acq_ok ∧ t.xfer_ok = s.xfer_ok

/-! The levels of a run, for the frame timeline (41_transmit.md R139). -/

/-- The level on the transmit pin after tick `d` of a run that sends the bytes of TXB from index 0 on and whose START
armed the timer just before tick 1: high for one bit period, then frames of ten slots of one bit period each, the start
bit, the data bits least significant first, the stop bit (R139). -/
def frameLevel (s : State) (d : Nat) : Bool :=
  let slot := d / s.bit_period
  if slot = 0 then Config.idleLevel
  else
    let place := (slot - 1) % 10
    if place = 0 then Config.startLevel
    else if place = 9 then Config.stopLevel
    else
      match Memory.read s.TXB ((slot - 1) / 10) with
      | some b => b.getLsbD (place - 1)
      | none => Config.idleLevel

end Sys2Proof.Machine
end

