-- ==== Sys2Proof/Certificates/Slice0/Obligations.lean ====
section
/-! DEFINITION. The statements about the model, from the numbered rules of spec/. Where a statement rests on a choice of
the model's, its docstring names the log entry. -/

open Sys2Proof Sys2Proof.Machine

/-! ## Encoding -/

/-- R82-R88, R93: decoding the encoding of a well-formed instruction gives it back, with every operand value. -/
def Obligations.DecodeOfEncodedInstr : Prop :=
  ∀ i : Instr, i.WellFormed → decode (encode i) = .ok i

/-- R82-R88, R93: each step word that decodes is the encoding of its instruction, so no bit of it is ignored. -/
def Obligations.DecodedWordIsItsEncoding : Prop :=
  ∀ (w : StepWord) (i : Instr), decode w = .ok i → i.WellFormed ∧ encode i = w

/-- R94, R97: on a byte stream a step's length follows from its header, and the decoder's parse gives the step and what
follows it. -/
def Obligations.SerializedStepParsesBack : Prop :=
  ∀ (i : Instr) (rest : List Byte), i.WellFormed →
    (serialize (encode i)).length =
      4 + 4 * operandWords (encode i).header + payloadBytes (encode i).header ∧
    parse (serialize (encode i) ++ rest) = some (encode i, rest)

/-- R91: exactly these step words are refused as reserved, whatever follows the header. -/
def Obligations.ReservedEncodingsAreRefused : Prop :=
  (∀ w : StepWord, decode w = .error .reserved ↔
    (5 ≤ w.header.toNat / 2 ^ 28) ∨
    (w.header.toNat / 2 ^ 28 = 0 ∧ ∃ k, 3 ≤ k ∧ k ≤ 27 ∧ w.header.getLsbD k = true) ∨
    ((w.header.toNat / 2 ^ 28 = 1 ∨ w.header.toNat / 2 ^ 28 = 4) ∧ ∃ k, k ≤ 27 ∧ w.header.getLsbD k = true) ∨
    ((w.header.toNat / 2 ^ 28 = 2 ∨ w.header.toNat / 2 ^ 28 = 3) ∧
      ∃ k, 16 ≤ k ∧ k ≤ 27 ∧ w.header.getLsbD k = true)) ∧
  (∀ (s : State) (p : StepInput) (rest : List StepInput), s.input = p :: rest →
    decode p.word = .error .reserved → step s = .refused .reservedEncoding)

/-- R92, R93: among the words that are not reserved, exactly these are refused as malformed. That exec refuses an
ill-formed WRITE term so in every session state is the model's choice (log entry 12). -/
def Obligations.MalformedCommandsAreRefused : Prop :=
  (∀ w : StepWord, decode w = .error .malformed ↔
    decode w ≠ .error .reserved ∧
    ((w.header.toNat / 2 ^ 28 = 1 ∧ (w.operands.length ≠ 7 ∨ w.payload ≠ [])) ∨
     (w.header.toNat / 2 ^ 28 = 2 ∧ (w.operands ≠ [] ∨ w.payload.length ≠ w.header.toNat % 2 ^ 16)) ∨
     ((w.header.toNat / 2 ^ 28 = 0 ∨ w.header.toNat / 2 ^ 28 = 3 ∨ w.header.toNat / 2 ^ 28 = 4) ∧
       (w.operands ≠ [] ∨ w.payload ≠ [])))) ∧
  (∀ (s : State) (p : StepInput) (rest : List StepInput), s.input = p :: rest →
    decode p.word = .error .malformed → step s = .refused .malformedCommand) ∧
  (∀ (n : Half) (payload : List Byte) (s : State), payload.length ≠ n.toNat →
    exec (.write n payload) s = .refused .malformedCommand)

/-- R84-R88, R93: words written out from the spec's tables (V-E1, V-E2 of 95_test_vectors.md) decode to the steps they
stand for. -/
def Obligations.SpecWordsDecodeAsWritten : Prop :=
  decode ⟨0x00000001, [], []⟩ = .ok (.tick true false false) ∧
  decode ⟨0x00000006, [], []⟩ = .ok (.tick false true true) ∧
  decode ⟨0x10000000, [0x11, 0x1B, 0x2580, 8, 1, 0, 0], []⟩ = .ok (.configure 17 27 9600 8 1 0 0) ∧
  decode ⟨0x20000002, [], [0x41, 0x42]⟩ = .ok (.write 2 [0x41, 0x42]) ∧
  decode ⟨0x30000010, [], []⟩ = .ok (.read 16) ∧
  decode ⟨0x40000000, [], []⟩ = .ok .teardown ∧
  serialize (encode (.write 2 [0x41, 0x42])) = [0x02, 0x00, 0x00, 0x20, 0x41, 0x42]

/-! ## The step and reset -/

/-- R81, R93: a step takes the oldest step of the input with its draws and runs what its words decode to; refused words
end it. With no input the block waits (R271; that this is a next state is the model's choice, log entry 3). -/
def Obligations.StepRunsTheDecodedInstr : Prop :=
  (∀ (s : State) (p : StepInput) (rest : List StepInput), s.input = p :: rest →
    (∀ i, decode p.word = .ok i →
      step s = exec i { s with input := rest, acq_ok := p.acqOk, xfer_ok := p.xferOk }) ∧
    (decode p.word = .error .reserved → step s = .refused .reservedEncoding) ∧
    (decode p.word = .error .malformed → step s = .refused .malformedCommand)) ∧
  (∀ s : State, s.input = [] → step s = .next { s with rsp := none })

/-- R81, R97: an instruction given by its bits runs as the next step (that it comes with both draws 1 is the model's
choice, log entry 13). -/
def Obligations.FetchedTableWordRuns : Prop :=
  ∀ (s : State) (nbits w : Nat) (i : Instr), decodeTableWord nbits w = some i →
    step (s.withFetchWord nbits w) = exec i { s with acq_ok := true, xfer_ok := true }

/-- R270: the reset state, for every instance, and that asserting rst returns to it from any state. That an unspecified
cell reads as no value (log entry 6) and that no response is pending (log entry 5) are the model's choices. -/
def Obligations.ResetLeavesTheSpecValues : Prop :=
  (∀ p : Config.Params,
    let r := State.resetWith p
    r.sess = .unconfigured ∧ r.cfg_tx_pin = 0 ∧ r.cfg_rx_pin = 0 ∧ r.cfg_baud = 0 ∧ r.bit_period = 0 ∧
    r.tx_busy = false ∧ r.tx_pos = .start ∧ r.tx_len = 0 ∧ r.tx_rd = 0 ∧ r.tx_shift = 0 ∧
    r.tx_armed = false ∧ r.tx_cnt = 0 ∧ r.tx_out = true ∧ r.tx_oe = false ∧
    r.rx_len = 0 ∧ r.rx_acc = 0 ∧ r.rx_count = 0 ∧ r.edge_en = false ∧ r.rx_armed = false ∧ r.rx_cnt = 0 ∧
    r.rx_prev = true ∧ r.rx_prev_valid = false ∧ r.edge_pending = false ∧ r.sched_fault_seen = false ∧
    r.rsp = none ∧ (∀ i, Memory.read r.TXB i = none) ∧ (∀ i, Memory.read r.RXB i = none)) ∧
  (∀ s : State, s.assertRst = State.resetWith s.params)

/-! ## Bit-timing clock -/

/-- R100: BitPeriod on every s32 value. -/
def Obligations.BitPeriodTruncates : Prop :=
  ∀ b : Int,
    (b ≤ 0 → bitPeriod b = .invalid) ∧
    (1 ≤ b → b ≤ 1000000 → bitPeriod b = .ticks (1000000 / b.toNat) ∧ 1 ≤ 1000000 / b.toNat) ∧
    (1000000 < b → bitPeriod b = .zero)

/-- R104: the line rate 1,000,000 / P is at least B, and equals B only when B divides 1,000,000. -/
def Obligations.LineRateIsAtLeastBaud : Prop :=
  ∀ (b : Int) (p : Nat), bitPeriod b = .ticks p →
    1 ≤ p ∧ p ≤ 1000000 ∧ b.toNat * p ≤ 1000000 ∧ (b.toNat * p = 1000000 ↔ b.toNat ∣ 1000000)

/-! ## CONFIGURE -/

/-- R191, R192, R194: every outcome of CONFIGURE, in the order of its checks, whatever the reserved operands w4..w7 hold;
the state written on OK is R193's. -/
def Obligations.ConfigureChecksInOrder : Prop :=
  ∀ (w1 w2 w3 w4 w5 w6 w7 : Word) (s : State),
    (s.sess ≠ .unconfigured → exec (.configure w1 w2 w3 w4 w5 w6 w7) s = .refused .alreadyConfigured) ∧
    (s.sess = .unconfigured →
      ((w1.toInt < 0 ∨ w2.toInt < 0 ∨ w1 = w2) →
        exec (.configure w1 w2 w3 w4 w5 w6 w7) s = .next { s with rsp := some ⟨.invalidConfiguration, 0, []⟩ }) ∧
      (0 ≤ w1.toInt → 0 ≤ w2.toInt → w1 ≠ w2 →
        (s.acq_ok = false →
          exec (.configure w1 w2 w3 w4 w5 w6 w7) s = .next { s with rsp := some ⟨.resourceUnavailable, 0, []⟩ }) ∧
        (s.acq_ok = true →
          (w3.toInt ≤ 0 →
            exec (.configure w1 w2 w3 w4 w5 w6 w7) s = .next { s with rsp := some ⟨.invalidConfiguration, 0, []⟩ }) ∧
          (1000000 < w3.toInt →
            exec (.configure w1 w2 w3 w4 w5 w6 w7) s = .refused .zeroBitPeriod) ∧
          (0 < w3.toInt → w3.toInt ≤ 1000000 →
            exec (.configure w1 w2 w3 w4 w5 w6 w7) s =
              .next (respond .ok 0 [] (initSession w1 w2 w3 (1000000 / w3.toInt.toNat) s))))))

/-- R193: a CONFIGURE that passes its checks starts a session with exactly these values, and writes nothing else. -/
def Obligations.ConfigureStartsASession : Prop :=
  ∀ (w1 w2 w3 w4 w5 w6 w7 : Word) (s : State),
    s.sess = .unconfigured → s.acq_ok = true → 0 ≤ w1.toInt → 0 ≤ w2.toInt → w1 ≠ w2 →
    1 ≤ w3.toInt → w3.toInt ≤ 1000000 →
    exec (.configure w1 w2 w3 w4 w5 w6 w7) s = .next { s with
      sess := .configured
      cfg_tx_pin := w1, cfg_rx_pin := w2, cfg_baud := w3, bit_period := 1000000 / w3.toInt.toNat
      tx_busy := false, tx_pos := .start, tx_len := 0, tx_rd := 0, tx_shift := 0
      tx_armed := false, tx_cnt := 0, tx_out := true, tx_oe := true
      rx_len := 0, rx_acc := 0, rx_count := 0, rx_armed := false, rx_cnt := 0
      edge_en := true, rx_prev := true, rx_prev_valid := false, edge_pending := false
      rsp := some ⟨.ok, 0, []⟩ }

/-- R192, R193: the frame of CONFIGURE. No cell of either buffer changes, nor sched_fault_seen; with a status other
than OK nothing changes but the response. -/
def Obligations.ConfigureFrame : Prop :=
  ∀ (w1 w2 w3 w4 w5 w6 w7 : Word) (s t : State), exec (.configure w1 w2 w3 w4 w5 w6 w7) s = .next t →
    SamePorts s t ∧ SameCells s.TXB t.TXB ∧ SameCells s.RXB t.RXB ∧ t.sched_fault_seen = s.sched_fault_seen ∧
    (t.rsp ≠ some ⟨.ok, 0, []⟩ → t = { s with rsp := t.rsp })

/-! ## WRITE -/

/-- R133, R134: an accepted WRITE of N ≥ 1 bytes puts them behind the bytes queued, starts the engine when it is idle
and only then, and writes nothing else. -/
def Obligations.WriteAppendsAndStartsWhenIdle : Prop :=
  ∀ (n : Half) (payload : List Byte) (s : State),
    s.sess = .configured → payload.length = n.toNat → 1 ≤ n.toNat →
    s.tx_len + n.toNat ≤ s.params.TX_CAP → s.xfer_ok = true →
    ∃ m : Memory,
      (∀ i, i < n.toNat → Memory.read m (s.tx_len + i) = payload[i]?) ∧
      (∀ a, a < s.tx_len ∨ s.tx_len + n.toNat ≤ a → Memory.read m a = Memory.read s.TXB a) ∧
      (s.tx_busy = true →
        exec (.write n payload) s = .next { s with
          TXB := m, tx_len := s.tx_len + n.toNat, rsp := some ⟨.ok, n, []⟩ }) ∧
      (s.tx_busy = false →
        exec (.write n payload) s = .next { s with
          TXB := m, tx_len := s.tx_len + n.toNat
          tx_out := true, tx_pos := .start, tx_busy := true, tx_armed := true, tx_cnt := s.bit_period
          rsp := some ⟨.ok, n, []⟩ })

/-- R130, R131, R132: an empty WRITE, one that does not fit and one whose copy-in fails change nothing; the checks are
made in this order. -/
def Obligations.WriteRejectedWhole : Prop :=
  ∀ (n : Half) (payload : List Byte) (s : State), s.sess = .configured → payload.length = n.toNat →
    (n.toNat = 0 → exec (.write n payload) s = .next { s with rsp := some ⟨.ok, 0, []⟩ }) ∧
    (1 ≤ n.toNat → s.params.TX_CAP < s.tx_len + n.toNat →
      exec (.write n payload) s = .next { s with rsp := some ⟨.bufferOverflow, 0, []⟩ }) ∧
    (1 ≤ n.toNat → s.tx_len + n.toNat ≤ s.params.TX_CAP → s.xfer_ok = false →
      exec (.write n payload) s = .next { s with rsp := some ⟨.transferFault, 0, []⟩ })

/-- The frame of WRITE (R195, R133, R134): only the cells appended to, tx_len and START's fields may change. -/
def Obligations.WriteFrame : Prop :=
  ∀ (n : Half) (payload : List Byte) (s t : State), exec (.write n payload) s = .next t →
    SamePorts s t ∧ SameSession s t ∧ SameReceive s t ∧ t.sched_fault_seen = s.sched_fault_seen ∧
    t.tx_rd = s.tx_rd ∧ t.tx_shift = s.tx_shift ∧ t.tx_oe = s.tx_oe ∧
    (s.tx_busy = true → t.tx_busy = true ∧ t.tx_pos = s.tx_pos ∧ t.tx_armed = s.tx_armed ∧ t.tx_cnt = s.tx_cnt ∧
      t.tx_out = s.tx_out) ∧
    (∀ a, a < s.tx_len ∨ s.tx_len + n.toNat ≤ a → Memory.read t.TXB a = Memory.read s.TXB a) ∧
    (t.rsp ≠ some ⟨.ok, n, []⟩ → t = { s with rsp := t.rsp })

/-- R197: a WRITE takes all N bytes or none, and its count says which. -/
def Obligations.WriteCountIsAllOrNone : Prop :=
  ∀ (n : Half) (payload : List Byte) (s t : State), exec (.write n payload) s = .next t →
    ∃ r : Response, t.rsp = some r ∧ r.data = [] ∧
      (r.status = .ok → r.count = n ∧ t.tx_len = s.tx_len + n.toNat) ∧
      (r.status ≠ .ok → r.count = 0 ∧ t.tx_len = s.tx_len ∧ SameCells s.TXB t.TXB)

/-! ## READ -/

/-- R199: a READ that returns k ≥ 1 bytes returns the k oldest and moves the rest to the front; it changes nothing
else. What the vacated cells hold is left out (R75). -/
def Obligations.ReadReturnsTheOldestBytes : Prop :=
  ∀ (max : Half) (s : State), s.sess = .configured → s.xfer_ok = true → 1 ≤ min max.toNat s.rx_len →
    s.rx_len ≤ s.params.RX_CAP → (∀ i, i < s.rx_len → (Memory.read s.RXB i).isSome = true) →
    ∃ (m : Memory) (data : List Byte),
      exec (.read max) s = .next { s with
        RXB := m, rx_len := s.rx_len - min max.toNat s.rx_len
        rsp := some ⟨.ok, BitVec.ofNat 16 (min max.toNat s.rx_len), data⟩ } ∧
      data.length = min max.toNat s.rx_len ∧
      (∀ i, i < min max.toNat s.rx_len → data[i]? = Memory.read s.RXB i) ∧
      (∀ i, i < s.rx_len - min max.toNat s.rx_len →
        Memory.read m i = Memory.read s.RXB (i + min max.toNat s.rx_len)) ∧
      (∀ a, s.rx_len ≤ a → Memory.read m a = Memory.read s.RXB a)

/-- R200, R201: a READ of nothing returns OK whatever the copy-out would answer; a READ whose copy-out fails changes
nothing, so the bytes stay. -/
def Obligations.ReadOfNothingAndFailedCopyOut : Prop :=
  ∀ (max : Half) (s : State), s.sess = .configured →
    (s.rx_len = 0 ∨ max.toNat = 0 → exec (.read max) s = .next { s with rsp := some ⟨.ok, 0, []⟩ }) ∧
    (1 ≤ s.rx_len → 1 ≤ max.toNat → s.xfer_ok = false →
      exec (.read max) s = .next { s with rsp := some ⟨.transferFault, 0, []⟩ })

/-- The frame of READ (R198): only RXB below the valid length and rx_len may change. -/
def Obligations.ReadFrame : Prop :=
  ∀ (max : Half) (s t : State), exec (.read max) s = .next t →
    SamePorts s t ∧ SameSession s t ∧ SameTransmit s t ∧ t.sched_fault_seen = s.sched_fault_seen ∧
    t.rx_acc = s.rx_acc ∧ t.rx_count = s.rx_count ∧ t.edge_en = s.edge_en ∧ t.rx_armed = s.rx_armed ∧
    t.rx_cnt = s.rx_cnt ∧ t.rx_prev = s.rx_prev ∧ t.rx_prev_valid = s.rx_prev_valid ∧
    t.edge_pending = s.edge_pending ∧
    (∀ a, s.rx_len ≤ a → Memory.read t.RXB a = Memory.read s.RXB a) ∧
    (t.rx_len = s.rx_len → t = { s with rsp := t.rsp })

/-! ## TEARDOWN -/

/-- R202: TEARDOWN from every session state. -/
def Obligations.TeardownReleasesAndResets : Prop :=
  ∀ s : State,
    (s.sess = .unconfigured → exec .teardown s = .next { s with rsp := some ⟨.ok, 0, []⟩ }) ∧
    (s.sess ≠ .unconfigured → exec .teardown s = .next { s with
      sess := .unconfigured
      cfg_tx_pin := 0, cfg_rx_pin := 0, cfg_baud := 0, bit_period := 0
      tx_busy := false, tx_pos := .start, tx_len := 0, tx_rd := 0, tx_shift := 0
      tx_armed := false, tx_cnt := 0, tx_out := true, tx_oe := false
      rx_len := 0, rx_acc := 0, rx_count := 0, edge_en := false, rx_armed := false, rx_cnt := 0
      rx_prev := true, rx_prev_valid := false, edge_pending := false
      rsp := some ⟨.ok, 0, []⟩ })

/-- R203: a TEARDOWN returns OK and leaves the session Unconfigured, and a second one returns OK and changes nothing. -/
def Obligations.TeardownTwiceIsTeardownOnce : Prop :=
  ∀ s : State, ∃ t, exec .teardown s = .next t ∧ t.rsp = some ⟨.ok, 0, []⟩ ∧ t.sess = .unconfigured ∧
    exec .teardown t = .next t

/-- R277: after TEARDOWN no callback and no edge event runs: ticks, with any inputs, change nothing but the response
port, and the pin stays released. -/
def Obligations.NoCallbackAfterTeardown : Prop :=
  ∀ (s t : State) (ticks : List (Bool × Bool × Bool)), exec .teardown s = .next t →
    ∃ u, runInstrs (ticks.map (fun x => Instr.tick x.1 x.2.1 x.2.2)) t = .next u ∧
      u = { t with rsp := u.rsp } ∧ (s.sess ≠ .unconfigured → u.tx_oe = false)

/-! ## Faulted and Unconfigured sessions -/

/-- R241: the whole behaviour of a Faulted session. -/
def Obligations.FaultedSessionRefusesFurtherOperation : Prop :=
  ∀ s : State, s.sess = .faulted →
    (∀ (n : Half) (payload : List Byte), payload.length = n.toNat →
      exec (.write n payload) s = .next { s with rsp := some ⟨.schedulingFault, 0, []⟩ }) ∧
    (∀ max : Half, exec (.read max) s = .next { s with rsp := some ⟨.schedulingFault, 0, []⟩ }) ∧
    (∀ w1 w2 w3 w4 w5 w6 w7, exec (.configure w1 w2 w3 w4 w5 w6 w7) s = .refused .alreadyConfigured) ∧
    (∀ rx ftx frx, exec (.tick rx ftx frx) s = .next { s with rsp := none }) ∧
    (∃ t, exec .teardown s = .next t ∧ t.sess = .unconfigured ∧ t.rsp = some ⟨.ok, 0, []⟩) ∧
    (∀ (i : Instr) (t : State), exec i s = .next t → t.sess ≠ .faulted → i = .teardown)

/-- R236: exactly when a well-formed step is refused, and with which reason. -/
def Obligations.StepsAreRefusedExactlyWhen : Prop :=
  ∀ (i : Instr) (s : State) (r : Refusal), i.WellFormed →
    (exec i s = .refused r ↔
      (r = .notConfigured ∧ s.sess = .unconfigured ∧ ((∃ n payload, i = .write n payload) ∨ ∃ max, i = .read max)) ∨
      (r = .alreadyConfigured ∧ s.sess ≠ .unconfigured ∧
        ∃ w1 w2 w3 w4 w5 w6 w7, i = .configure w1 w2 w3 w4 w5 w6 w7) ∨
      (r = .zeroBitPeriod ∧ s.sess = .unconfigured ∧ s.acq_ok = true ∧
        ∃ w1 w2 w3 w4 w5 w6 w7, i = .configure w1 w2 w3 w4 w5 w6 w7 ∧
          0 ≤ w1.toInt ∧ 0 ≤ w2.toInt ∧ w1 ≠ w2 ∧ 1000000 < w3.toInt))

/-! ## TICK -/

/-- R111: outside Configured a TICK changes no state. -/
def Obligations.TickOutsideConfiguredDoesNothing : Prop :=
  ∀ (rx ftx frx : Bool) (s : State), s.sess ≠ .configured →
    exec (.tick rx ftx frx) s = .next { s with rsp := none }

/-- R112, R240: a scheduling fault takes the whole tick, and a fault input whose timer is not armed is ignored. -/
def Obligations.SchedulingFaultTakesTheTick : Prop :=
  ∀ (rx ftx frx : Bool) (s : State), s.sess = .configured →
    ((ftx = true ∧ s.tx_armed = true) ∨ (frx = true ∧ s.rx_armed = true) →
      exec (.tick rx ftx frx) s = .next { s with
        sess := .faulted, tx_armed := false, rx_armed := false, edge_en := false, edge_pending := false
        sched_fault_seen := true, rsp := none }) ∧
    ((ftx = true → s.tx_armed = false) → (frx = true → s.rx_armed = false) →
      exec (.tick rx ftx frx) s = exec (.tick rx false false) s)

/-- R110, R167: from every state of the invariant a TICK completes, without a response, and a TICK that no scheduling
fault takes leaves the session Configured and `rx_prev` at this tick's level. -/
def Obligations.TickCompletesFromEveryInvariantState : Prop :=
  ∀ (rx ftx frx : Bool) (s : State), BlockInv s →
    ∃ t, exec (.tick rx ftx frx) s = .next t ∧ t.rsp = none ∧
      (s.sess = .configured → schedFault s ftx frx = false →
        t.sess = .configured ∧ t.rx_prev = rx ∧ t.rx_prev_valid = true)

/-- R106: a timer whose count is not 1 counts down by one and its callback does not run; a transmit timer that is not
armed does nothing. -/
def Obligations.TimersCountDown : Prop :=
  ∀ (rx : Bool) (s : State), BlockInv s → s.sess = .configured →
    ∃ t, exec (.tick rx false false) s = .next t ∧
      (s.tx_armed = true → s.tx_cnt ≠ 1 → SameTransmitButCount s t ∧ t.tx_cnt = s.tx_cnt - 1) ∧
      (s.tx_armed = false → SameTransmit s t) ∧
      (s.rx_armed = true → s.rx_cnt ≠ 1 →
        t.rx_cnt = s.rx_cnt - 1 ∧ t.rx_armed = true ∧ t.rx_acc = s.rx_acc ∧ t.rx_count = s.rx_count ∧
        t.rx_len = s.rx_len ∧ SameCells s.RXB t.RXB ∧ t.edge_en = s.edge_en)

/-- R135: the callback at position Start. -/
def Obligations.StartCallbackDrivesStartBit : Prop :=
  ∀ (rx : Bool) (s : State) (b : Byte), s.sess = .configured → s.tx_armed = true → s.tx_cnt = 1 →
    s.tx_pos = .start → s.tx_rd < s.params.TX_CAP → Memory.read s.TXB s.tx_rd = some b →
    ∃ t, exec (.tick rx false false) s = .next t ∧
      t.tx_out = false ∧ t.tx_shift = b ∧ t.tx_pos = .data 0 ∧ t.tx_armed = true ∧ t.tx_cnt = s.bit_period ∧
      t.tx_busy = s.tx_busy ∧ SameCells s.TXB t.TXB ∧ t.tx_len = s.tx_len ∧ t.tx_rd = s.tx_rd ∧ t.tx_oe = s.tx_oe

/-- R136: the callback at position Data k. -/
def Obligations.DataCallbackDrivesBitK : Prop :=
  ∀ (rx : Bool) (s : State) (k : Fin 8), s.sess = .configured → s.tx_armed = true → s.tx_cnt = 1 →
    s.tx_pos = .data k →
    ∃ t, exec (.tick rx false false) s = .next t ∧
      t.tx_out = s.tx_shift.getLsbD k.val ∧
      (∀ j : Fin 8, j.val = k.val + 1 → t.tx_pos = .data j) ∧ (k.val = 7 → t.tx_pos = .stop) ∧
      t.tx_armed = true ∧ t.tx_cnt = s.bit_period ∧
      t.tx_busy = s.tx_busy ∧ SameCells s.TXB t.TXB ∧ t.tx_len = s.tx_len ∧ t.tx_rd = s.tx_rd ∧
      t.tx_shift = s.tx_shift ∧ t.tx_oe = s.tx_oe

/-- R137: the callback at position Stop. -/
def Obligations.StopCallbackAdvancesOrEnds : Prop :=
  ∀ (rx : Bool) (s : State), s.sess = .configured → s.tx_armed = true → s.tx_cnt = 1 → s.tx_pos = .stop →
    ∃ t, exec (.tick rx false false) s = .next t ∧
      t.tx_out = true ∧ t.tx_pos = .start ∧
      (s.tx_rd + 1 < s.tx_len →
        t.tx_rd = s.tx_rd + 1 ∧ t.tx_armed = true ∧ t.tx_cnt = s.bit_period ∧ t.tx_busy = s.tx_busy ∧
        t.tx_len = s.tx_len) ∧
      (s.tx_len ≤ s.tx_rd + 1 →
        t.tx_busy = false ∧ t.tx_armed = false ∧ t.tx_rd = 0 ∧ t.tx_len = 0 ∧ t.tx_cnt = s.tx_cnt) ∧
      SameCells s.TXB t.TXB ∧ t.tx_shift = s.tx_shift ∧ t.tx_oe = s.tx_oe

/-- R160, R161: with edge delivery on, a falling edge or a kept one starts a byte, and nothing else does. -/
def Obligations.EdgeEventStartsAByte : Prop :=
  ∀ (rx : Bool) (s : State), BlockInv s → s.sess = .configured → s.edge_en = true →
    ∃ t, exec (.tick rx false false) s = .next t ∧
      ((s.rx_prev_valid = true ∧ s.rx_prev = true ∧ rx = false) ∨ s.edge_pending = true →
        t.edge_en = false ∧ t.rx_acc = 0 ∧ t.rx_count = 0 ∧ t.edge_pending = false ∧
        t.rx_armed = true ∧ t.rx_cnt = s.bit_period ∧ t.rx_len = s.rx_len ∧ SameCells s.RXB t.RXB) ∧
      (¬ (s.rx_prev_valid = true ∧ s.rx_prev = true ∧ rx = false) → s.edge_pending = false →
        SameReceiveButCount s t ∧ t.rx_cnt = s.rx_cnt)

/-- R162: a falling edge while edge delivery is off is kept exactly when the parameter says so. -/
def Obligations.MaskedEdgeIsKeptOnlyWithTheParameter : Prop :=
  ∀ (rx : Bool) (s : State), BlockInv s → s.sess = .configured → s.edge_en = false →
    ∃ t, exec (.tick rx false false) s = .next t ∧
      t.edge_pending = (s.edge_pending ||
        (s.params.EDGE_LATCH_WHILE_MASKED && (s.rx_prev_valid && s.rx_prev && !rx)))

/-- R164: one of the first seven samples. -/
def Obligations.SampleShiftsIntoTheAccumulator : Prop :=
  ∀ (rx : Bool) (s : State), BlockInv s → s.sess = .configured → s.rx_armed = true → s.rx_cnt = 1 →
    s.rx_count.val < 7 →
    ∃ t, exec (.tick rx false false) s = .next t ∧
      t.rx_acc.getLsbD 7 = rx ∧ (∀ j, j < 7 → t.rx_acc.getLsbD j = s.rx_acc.getLsbD (j + 1)) ∧
      t.rx_count.val = s.rx_count.val + 1 ∧ t.rx_armed = true ∧ t.rx_cnt = s.bit_period ∧
      t.edge_en = s.edge_en ∧ t.rx_len = s.rx_len ∧ SameCells s.RXB t.RXB

/-- R165, R166: the eighth sample commits the byte where there is room and drops it where there is none. -/
def Obligations.EighthSampleCommitsOrDrops : Prop :=
  ∀ (rx : Bool) (s : State), BlockInv s → s.sess = .configured → s.rx_armed = true → s.rx_cnt = 1 →
    s.rx_count.val = 7 →
    ∃ (t : State) (b : Byte), exec (.tick rx false false) s = .next t ∧
      b.getLsbD 7 = rx ∧ (∀ j, j < 7 → b.getLsbD j = s.rx_acc.getLsbD (j + 1)) ∧
      t.rx_acc = 0 ∧ t.rx_count = 0 ∧ t.rx_armed = false ∧ t.edge_en = true ∧
      (s.rx_len < s.params.RX_CAP →
        t.rx_len = s.rx_len + 1 ∧ Memory.read t.RXB s.rx_len = some b ∧
        ∀ a, a ≠ s.rx_len → Memory.read t.RXB a = Memory.read s.RXB a) ∧
      (s.rx_len = s.params.RX_CAP → t.rx_len = s.rx_len ∧ SameCells s.RXB t.RXB)

/-- R110: the frame of TICK. -/
def Obligations.TickFrame : Prop :=
  ∀ (rx ftx frx : Bool) (s t : State), exec (.tick rx ftx frx) s = .next t →
    SamePorts s t ∧ t.cfg_tx_pin = s.cfg_tx_pin ∧ t.cfg_rx_pin = s.cfg_rx_pin ∧ t.cfg_baud = s.cfg_baud ∧
    t.bit_period = s.bit_period ∧ t.tx_oe = s.tx_oe ∧ SameCells s.TXB t.TXB ∧
    (t.sess ≠ s.sess → s.sess = .configured ∧ t.sess = .faulted ∧ t.sched_fault_seen = true) ∧
    (t.sess = s.sess → t.sched_fault_seen = s.sched_fault_seen) ∧
    (∀ a, Memory.read t.RXB a ≠ Memory.read s.RXB a →
      a = s.rx_len ∧ s.rx_len < s.params.RX_CAP ∧ s.rx_armed = true ∧ s.rx_cnt = 1 ∧ s.rx_count = 7) ∧
    (t.rx_len ≠ s.rx_len → t.rx_len = s.rx_len + 1 ∧ s.rx_armed = true ∧ s.rx_cnt = 1 ∧ s.rx_count = 7)

/-- R138: a TICK changes the transmit pin only when the transmit timer fires in it. -/
def Obligations.PinChangesOnlyWhenTransmitTimerFires : Prop :=
  ∀ (rx ftx frx : Bool) (s t : State), exec (.tick rx ftx frx) s = .next t →
    t.tx_out ≠ s.tx_out → s.sess = .configured ∧ s.tx_armed = true ∧ s.tx_cnt = 1

/-- R109: neither engine's part of a tick reads the other engine. -/
def Obligations.EnginesDoNotInterfere : Prop :=
  ∀ (rx rx' : Bool) (s s' t t' : State), s.sess = .configured → s'.sess = .configured →
    s'.bit_period = s.bit_period → s'.params = s.params →
    exec (.tick rx false false) s = .next t → exec (.tick rx' false false) s' = .next t' →
    (SameTransmit s s' → SameTransmit t t') ∧ (rx' = rx → SameReceive s s' → SameReceive t t')

/-- R140: the transitions of the transmit engine in its named states. -/
def Obligations.TransmitEngineTransitions : Prop :=
  ∀ (rx : Bool) (s : State), BlockInv s → s.sess = .configured →
    ∃ t, exec (.tick rx false false) s = .next t ∧
      (txFires s = false → txPhase t = txPhase s) ∧
      (txFires s = true →
        (txPhase s = .armedForStart → txPhase t = .shiftingBit 0) ∧
        (∀ k j : Fin 8, txPhase s = .shiftingBit k → j.val = k.val + 1 → txPhase t = .shiftingBit j) ∧
        (txPhase s = .shiftingBit 7 → txPhase t = .stopBit) ∧
        (txPhase s = .stopBit → txPhase t = if s.tx_rd + 1 < s.tx_len then .armedForStart else .idle))

/-- R170: the transitions of the receive engine in its named states. -/
def Obligations.ReceiveEngineTransitions : Prop :=
  ∀ (rx : Bool) (s : State), BlockInv s → s.sess = .configured →
    ∃ t, exec (.tick rx false false) s = .next t ∧
      (rxPhase s = .idle → rxPhase t = if edgeTaken s rx then .armedForFirstBit else .idle) ∧
      (rxPhase s ≠ .idle → rxFires s = false → rxPhase t = rxPhase s) ∧
      (rxFires s = true →
        (rxPhase s = .armedForFirstBit → rxPhase t = .samplingBit 1) ∧
        (∀ k j : Fin 8, rxPhase s = .samplingBit k → j.val = k.val + 1 → rxPhase t = .samplingBit j) ∧
        (rxPhase s = .samplingBit 7 → rxPhase t = .idle))

/-! ## Whole-machine rules -/

/-- R50: the reset state of every legal instance meets the invariant. -/
def Obligations.ResetMeetsTheInvariant : Prop :=
  (∀ p : Config.Params, p.Legal → BlockInv (State.resetWith p)) ∧ BlockInv State.reset

/-- R50: every step keeps the invariant, from every state that meets it. -/
def Obligations.StepKeepsTheInvariant : Prop :=
  ∀ s t : State, BlockInv s → step s = .next t → BlockInv t

/-- R11, R61: from a state of the invariant no step faults: a step ends in a next state or a refusal. -/
def Obligations.StepNeverFaultsUnderTheInvariant : Prop :=
  ∀ (s : State) (f : Fault), BlockInv s → step s ≠ .fault f

/-- R61, R75: where the machine stops with a fault, which is the model's choice for a read of a cell that has no specified
contents or does not exist (log entries 6 and 16): exactly at a Start callback or a READ that needs such a cell. -/
def Obligations.FaultsExactlyOnCellsWithoutContents : Prop :=
  ∀ (i : Instr) (s : State), (∃ f, exec i s = .fault f) ↔
    s.sess = .configured ∧
    ((∃ rx ftx frx, i = .tick rx ftx frx ∧ schedFault s ftx frx = false ∧ txFires s = true ∧ s.tx_pos = .start ∧
        (s.params.TX_CAP ≤ s.tx_rd ∨ Memory.read s.TXB s.tx_rd = none)) ∨
     (∃ max, i = .read max ∧ s.xfer_ok = true ∧ 1 ≤ min max.toNat s.rx_len ∧
        ∃ j, j < s.rx_len ∧ (s.params.RX_CAP ≤ j ∨ Memory.read s.RXB j = none)))

/-- R50: so no count or cursor exceeds its stated width. -/
def Obligations.InvariantBoundsStatedWidths : Prop :=
  ∀ s : State, BlockInv s → s.bit_period < 2 ^ 20 ∧ s.tx_len < 2 ^ 16 ∧ s.tx_rd < 2 ^ 16 ∧ s.rx_len < 2 ^ 16 ∧
    (s.tx_armed = true → s.tx_cnt < 2 ^ 20) ∧ (s.rx_armed = true → s.rx_cnt < 2 ^ 20)

/-- R134, R137: while Configured the line is high whenever the next callback is a start bit, so an idle engine holds the
line high; every step keeps this. -/
def Obligations.StepKeepsIdleLineHigh : Prop :=
  (∀ s t : State, (s.sess = .configured → s.tx_pos = .start → s.tx_out = true) → step s = .next t →
    t.sess = .configured → t.tx_pos = .start → t.tx_out = true) ∧
  (∀ s : State, BlockInv s → s.sess = .configured → s.tx_busy = false → s.tx_pos = .start)

/-- R21: sess is written only by CONFIGURE, TEARDOWN and the scheduling-fault entry. -/
def Obligations.SessionStateHasThreeWriters : Prop :=
  ∀ (i : Instr) (s t : State), exec i s = .next t → t.sess ≠ s.sess →
    (s.sess = .unconfigured ∧ t.sess = .configured ∧ ∃ w1 w2 w3 w4 w5 w6 w7, i = .configure w1 w2 w3 w4 w5 w6 w7) ∨
    (t.sess = .unconfigured ∧ i = .teardown) ∨
    (s.sess = .configured ∧ t.sess = .faulted ∧ ∃ rx ftx frx, i = .tick rx ftx frx ∧ schedFault s ftx frx = true)

/-- R48: sched_fault_seen is set by the fault entry and cleared by no step, only by reset. -/
def Obligations.SchedFaultSeenIsSticky : Prop :=
  (∀ s t : State, step s = .next t →
    (s.sched_fault_seen = true → t.sched_fault_seen = true) ∧
    (s.sched_fault_seen = false → t.sched_fault_seen = true → s.sess = .configured ∧ t.sess = .faulted) ∧
    (s.sess ≠ .faulted → t.sess = .faulted → t.sched_fault_seen = true)) ∧
  (∀ s : State, s.assertRst.sched_fault_seen = false)

/-- R52: which steps may set and clear each of the one-bit status fields of its table. The fault entry clears edge_pending, as R240 says and
R52's table does not list (log entry 17). -/
def Obligations.StatusFlagsChangeOnlyByTheirWriters : Prop :=
  ∀ (i : Instr) (s t : State), BlockInv s → exec i s = .next t →
    (s.tx_busy = false → t.tx_busy = true → ∃ n payload, i = .write n payload) ∧
    (s.tx_busy = true → t.tx_busy = false →
      i = .teardown ∨ (txFires s = true ∧ s.tx_pos = .stop ∧ ∃ rx ftx frx, i = .tick rx ftx frx)) ∧
    (s.edge_en = false → t.edge_en = true →
      (∃ w1 w2 w3 w4 w5 w6 w7, i = .configure w1 w2 w3 w4 w5 w6 w7) ∨
      (rxFires s = true ∧ s.rx_count = 7 ∧ ∃ rx ftx frx, i = .tick rx ftx frx)) ∧
    (s.edge_en = true → t.edge_en = false →
      i = .teardown ∨ ∃ rx ftx frx, i = .tick rx ftx frx ∧ (edgeTaken s rx = true ∨ schedFault s ftx frx = true)) ∧
    (s.edge_pending = false → t.edge_pending = true → ∃ rx ftx frx, i = .tick rx ftx frx ∧ edgeLatched s rx = true) ∧
    (s.edge_pending = true → t.edge_pending = false →
      i = .teardown ∨ ∃ rx ftx frx, i = .tick rx ftx frx ∧ (edgeTaken s rx = true ∨ schedFault s ftx frx = true)) ∧
    (s.tx_armed = false → t.tx_armed = true → ∃ n payload, i = .write n payload) ∧
    (s.tx_armed = true → t.tx_armed = false →
      i = .teardown ∨ ∃ rx ftx frx, i = .tick rx ftx frx ∧
        ((txFires s = true ∧ s.tx_pos = .stop) ∨ schedFault s ftx frx = true)) ∧
    (s.rx_armed = false → t.rx_armed = true → ∃ rx ftx frx, i = .tick rx ftx frx ∧ edgeTaken s rx = true) ∧
    (s.rx_armed = true → t.rx_armed = false →
      i = .teardown ∨ ∃ rx ftx frx, i = .tick rx ftx frx ∧
        ((rxFires s = true ∧ s.rx_count = 7) ∨ schedFault s ftx frx = true)) ∧
    (s.rx_prev_valid = false → t.rx_prev_valid = true → s.sess = .configured ∧ ∃ rx ftx frx, i = .tick rx ftx frx) ∧
    (s.rx_prev_valid = true → t.rx_prev_valid = false → i = .teardown) ∧
    (s.sched_fault_seen = true → t.sched_fault_seen = true) ∧
    (s.sched_fault_seen = false → t.sched_fault_seen = true →
      s.sess = .configured ∧ ∃ rx ftx frx, i = .tick rx ftx frx ∧ schedFault s ftx frx = true)

/-- R89: a host command produces exactly one response, a TICK none; the data is there only for a READ, and the count
says how much of it. -/
def Obligations.EachHostCommandHasOneResponse : Prop :=
  ∀ (i : Instr) (s t : State), exec i s = .next t →
    ((∃ rx ftx frx, i = .tick rx ftx frx) → t.rsp = none) ∧
    ((∀ rx ftx frx, i ≠ .tick rx ftx frx) → ∃ r, t.rsp = some r ∧
      (r.status ≠ .ok → r.count = 0 ∧ r.data = []) ∧
      ((∀ max, i ≠ .read max) → r.data = []) ∧
      ((∀ max, i ≠ .read max) → (∀ n payload, i ≠ .write n payload) → r.count = 0) ∧
      (∀ n payload, i = .write n payload → r.status = .ok → r.count = n) ∧
      (∀ max, i = .read max → r.data.length = r.count.toNat ∧ r.count.toNat ≤ max.toNat))

/-- R230: a host command that ends in an error leaves the state as it was. -/
def Obligations.ErrorsLeaveTheStateUnchanged : Prop :=
  ∀ (i : Instr) (s t : State) (r : Response), exec i s = .next t → t.rsp = some r → r.status ≠ .ok →
    t = { s with rsp := some r }

/-- R115: no host command advances a timer; a timer it changes it has armed anew or cancelled. -/
def Obligations.HostCommandsTakeNoTime : Prop :=
  ∀ (i : Instr) (s t : State), (∀ rx ftx frx, i ≠ .tick rx ftx frx) → BlockInv s → exec i s = .next t →
    (s.tx_armed = true → t.tx_armed = true → t.tx_cnt = s.tx_cnt) ∧
    (s.tx_armed = false → t.tx_armed = true → t.tx_cnt = s.bit_period) ∧
    (t.rx_armed = true → s.rx_armed = true ∧ t.rx_cnt = s.rx_cnt)

/-! ## Timelines -/

/-- R108: an armed timer with count c fires in the c-th tick and in no earlier one: until then the rest of the transmit
engine, or the byte in progress and the receive buffer, stand. -/
def Obligations.TimerFiresInTheTickItsCountNames : Prop :=
  ∀ (s : State) (levels : List Bool), BlockInv s → s.sess = .configured →
    ∃ t, runTicks levels s = .next t ∧
      (s.tx_armed = true → levels.length < s.tx_cnt →
        SameTransmitButCount s t ∧ t.tx_cnt = s.tx_cnt - levels.length ∧
        (txFires t = true ↔ levels.length + 1 = s.tx_cnt)) ∧
      (s.rx_armed = true → levels.length < s.rx_cnt →
        t.rx_armed = true ∧ t.rx_acc = s.rx_acc ∧ t.rx_count = s.rx_count ∧ t.rx_len = s.rx_len ∧
        SameCells s.RXB t.RXB ∧ t.rx_cnt = s.rx_cnt - levels.length ∧
        (rxFires t = true ↔ levels.length + 1 = s.rx_cnt))

/-- R139: the frame timeline of a run that sends the bytes queued at its start, for every stimulus on the receive pin:
the level after each tick of the run, and the tick in which it ends. -/
def Obligations.FrameTimeline : Prop :=
  ∀ (s : State) (levels : List Bool), BlockInv s → s.sess = .configured →
    s.tx_busy = true → s.tx_pos = .start → s.tx_rd = 0 → s.tx_cnt = s.bit_period → s.tx_out = true →
    levels.length ≤ 10 * s.bit_period * s.tx_len →
    ∃ t, runTicks levels s = .next t ∧ t.tx_out = frameLevel s levels.length ∧
      t.tx_busy = decide (levels.length < 10 * s.bit_period * s.tx_len)

/-- R168: the sample timeline from the tick of the edge event: bit k is the level of tick (k+1)·P, the commit is in tick
8·P, and edge delivery is off until then. -/
def Obligations.SampleTimeline : Prop :=
  ∀ (s : State) (levels : List Bool), BlockInv s → s.sess = .configured →
    s.rx_armed = true → s.rx_count = 0 → s.rx_cnt = s.bit_period →
    (levels.length < 8 * s.bit_period →
      ∃ t, runTicks levels s = .next t ∧ t.rx_armed = true ∧ t.edge_en = false ∧
        t.rx_count.val = levels.length / s.bit_period ∧ t.rx_len = s.rx_len ∧ SameCells s.RXB t.RXB) ∧
    (levels.length = 8 * s.bit_period →
      ∃ (t : State) (b : Byte), runTicks levels s = .next t ∧ t.rx_armed = false ∧ t.edge_en = true ∧
        (∀ k, k < 8 → levels[(k + 1) * s.bit_period - 1]? = some (b.getLsbD k)) ∧
        (s.rx_len < s.params.RX_CAP → t.rx_len = s.rx_len + 1 ∧ Memory.read t.RXB s.rx_len = some b) ∧
        (s.rx_len = s.params.RX_CAP → t.rx_len = s.rx_len ∧ SameCells s.RXB t.RXB))

/-- R278: a falling edge first seen in the commit tick is lost without the parameter, and gives an edge event in the
next tick with it. -/
def Obligations.EdgeInTheCommitTick : Prop :=
  ∀ (rx : Bool) (s : State), BlockInv s → s.sess = .configured → s.rx_armed = true → s.rx_cnt = 1 → s.rx_count = 7 →
    s.rx_prev_valid = true → s.rx_prev = true → s.edge_pending = false →
    ∃ t u, exec (.tick false false false) s = .next t ∧ t.edge_en = true ∧ t.rx_armed = false ∧
      exec (.tick rx false false) t = .next u ∧
      (s.params.EDGE_LATCH_WHILE_MASKED = false →
        t.edge_pending = false ∧ t.rx_prev = false ∧ u.rx_armed = false ∧ u.edge_en = true) ∧
      (s.params.EDGE_LATCH_WHILE_MASKED = true →
        t.edge_pending = true ∧ u.rx_armed = true ∧ u.rx_cnt = s.bit_period ∧ u.edge_pending = false)

/-- R282: from an idle receive engine no byte is committed within 8·P ticks, so two commits are at least 8·P + 1 ticks
apart. -/
def Obligations.CommitsAreMoreThanEightPeriodsApart : Prop :=
  ∀ (s : State) (levels : List Bool), BlockInv s → s.sess = .configured → s.rx_armed = false →
    levels.length ≤ 8 * s.bit_period →
    ∃ t, runTicks levels s = .next t ∧ t.rx_len = s.rx_len ∧ SameCells s.RXB t.RXB

/-- R280: the loopback round trip. A WRITE that starts a run on an idle block, then the harness's loop to the end of the
run: the bytes stand in RXB in their order behind those already there. With EDGE_LATCH_WHILE_MASKED the data bits' own
edges would be kept, so the parameter is false here. -/
def Obligations.LoopbackRoundTrip : Prop :=
  ∀ (n : Half) (payload : List Byte) (s : State), BlockInv s → s.sess = .configured →
    s.params.EDGE_LATCH_WHILE_MASKED = false → s.tx_busy = false → s.tx_out = true → s.rx_armed = false →
    payload.length = n.toNat → 1 ≤ n.toNat → n.toNat ≤ s.params.TX_CAP →
    s.rx_len + n.toNat ≤ s.params.RX_CAP → s.xfer_ok = true →
    ∃ t u, exec (.write n payload) s = .next t ∧ runLoop (10 * s.bit_period * n.toNat) t = .next u ∧
      u.tx_busy = false ∧ u.rx_len = s.rx_len + n.toNat ∧
      (∀ i, i < n.toNat → Memory.read u.RXB (s.rx_len + i) = payload[i]?) ∧
      (∀ i, i < s.rx_len → Memory.read u.RXB i = Memory.read s.RXB i)
end

