-- ==== Sys2Proof/Laws/Decode.lean ====
section
/-! SUPPORT. The fields of the headers the encoder builds, and the byte transport of words. -/

namespace Sys2Proof

@[simp] theorem opField_tickHeader (rx ftx frx : Bool) : opField (tickHeader rx ftx frx) = 0x0#4 := by
  cases rx <;> cases ftx <;> cases frx <;> decide

@[simp] theorem tickReserved_tickHeader (rx ftx frx : Bool) : tickReserved (tickHeader rx ftx frx) = 0#25 := by
  cases rx <;> cases ftx <;> cases frx <;> decide

@[simp] theorem tickHeader_bit0 (rx ftx frx : Bool) : (tickHeader rx ftx frx)[0] = rx := by
  cases rx <;> cases ftx <;> cases frx <;> decide

@[simp] theorem tickHeader_bit1 (rx ftx frx : Bool) : (tickHeader rx ftx frx)[1] = ftx := by
  cases rx <;> cases ftx <;> cases frx <;> decide

@[simp] theorem tickHeader_bit2 (rx ftx frx : Bool) : (tickHeader rx ftx frx)[2] = frx := by
  cases rx <;> cases ftx <;> cases frx <;> decide

@[simp] theorem opField_plainHeader (op : BitVec 4) : opField (plainHeader op) = op := by
  revert op; decide

@[simp] theorem argField_plainHeader (op : BitVec 4) : argField (plainHeader op) = 0#28 := by
  revert op; decide

theorem countHeader_toNat (op : BitVec 4) (n : Half) :
    (countHeader op n).toNat = op.toNat * 2 ^ 28 + n.toNat := by
  have hn := n.isLt
  simp only [countHeader, BitVec.toNat_append, BitVec.toNat_ofNat]
  rw [← Nat.shiftLeft_add_eq_or_of_lt hn]
  simp only [Nat.shiftLeft_eq, Nat.or_zero, Nat.zero_mod]
  omega

@[simp] theorem opField_countHeader (op : BitVec 4) (n : Half) : opField (countHeader op n) = op := by
  apply BitVec.eq_of_toNat_eq
  have hn := n.isLt
  have ho := op.isLt
  simp only [opField, BitVec.extractLsb'_toNat, countHeader_toNat, Nat.shiftRight_eq_div_pow]
  omega

@[simp] theorem countReserved_countHeader (op : BitVec 4) (n : Half) :
    countReserved (countHeader op n) = 0#12 := by
  apply BitVec.eq_of_toNat_eq
  have hn := n.isLt
  have ho := op.isLt
  simp only [countReserved, BitVec.extractLsb'_toNat, countHeader_toNat, Nat.shiftRight_eq_div_pow]
  simp only [BitVec.toNat_ofNat]
  omega

@[simp] theorem countField_countHeader (op : BitVec 4) (n : Half) : countField (countHeader op n) = n := by
  apply BitVec.eq_of_toNat_eq
  have hn := n.isLt
  simp only [countField, BitVec.extractLsb'_toNat, countHeader_toNat, Nat.shiftRight_eq_div_pow]
  omega

/-! A header word is its fields, so a word is determined by them. -/

theorem toNat_eq_op_arg (h : Word) : h.toNat = (opField h).toNat * 2 ^ 28 + (argField h).toNat := by
  have := h.isLt
  simp only [opField, argField, BitVec.extractLsb'_toNat, Nat.shiftRight_eq_div_pow]
  omega

theorem toNat_eq_op_count (h : Word) :
    h.toNat = (opField h).toNat * 2 ^ 28 + (countReserved h).toNat * 2 ^ 16 + (countField h).toNat := by
  have := h.isLt
  simp only [opField, countReserved, countField, BitVec.extractLsb'_toNat, Nat.shiftRight_eq_div_pow]
  omega

theorem toNat_eq_op_tick (h : Word) :
    h.toNat = (opField h).toNat * 2 ^ 28 + (tickReserved h).toNat * 8 +
      (h.getLsbD 2).toNat * 4 + (h.getLsbD 1).toNat * 2 + (h.getLsbD 0).toNat := by
  have := h.isLt
  have b : ∀ k, (h.getLsbD k).toNat = h.toNat / 2 ^ k % 2 := fun k => by
    rw [BitVec.getLsbD, Nat.testBit_eq_decide_div_mod_eq]
    rcases Nat.mod_two_eq_zero_or_one (h.toNat / 2 ^ k) with e | e <;> rw [e] <;> rfl
  simp only [opField, tickReserved, BitVec.extractLsb'_toNat, Nat.shiftRight_eq_div_pow, b]
  omega

theorem tickHeader_toNat (rx ftx frx : Bool) :
    (tickHeader rx ftx frx).toNat = frx.toNat * 4 + ftx.toNat * 2 + rx.toNat := by
  cases rx <;> cases ftx <;> cases frx <;> decide

theorem plainHeader_toNat (op : BitVec 4) : (plainHeader op).toNat = op.toNat * 2 ^ 28 := by
  revert op; decide

/-- OP is the header divided by 2^28 (R82). -/
theorem opField_toNat (h : Word) : (opField h).toNat = h.toNat / 2 ^ 28 := by
  have := h.isLt
  simp only [opField, BitVec.extractLsb'_toNat, Nat.shiftRight_eq_div_pow]
  omega

@[simp] theorem wordBytes_length (w : Word) : (wordBytes w).length = 4 := rfl

/-- The bytes of a word make the word (R97). -/
theorem bytesWord_wordBytes (w : Word) :
    bytesWord (w.extractLsb' 0 8) (w.extractLsb' 8 8) (w.extractLsb' 16 8) (w.extractLsb' 24 8) = w := by
  apply BitVec.eq_of_toNat_eq
  have hw := w.isLt
  have e : ∀ i, w.toNat >>> i % 2 ^ 8 < 2 ^ 8 := fun i => Nat.mod_lt _ (by decide)
  simp only [bytesWord, BitVec.toNat_append, BitVec.extractLsb'_toNat]
  rw [← Nat.shiftLeft_add_eq_or_of_lt (e 16), ← Nat.shiftLeft_add_eq_or_of_lt (e 8),
    ← Nat.shiftLeft_add_eq_or_of_lt (e 0)]
  simp only [Nat.shiftLeft_eq, Nat.shiftRight_eq_div_pow]
  omega

/-- Words put on a byte stream come off it. -/
theorem takeWords_flatMap (ws : List Word) (rest : List Byte) :
    takeWords ws.length (ws.flatMap wordBytes ++ rest) = some (ws, rest) := by
  induction ws with
  | nil => rfl
  | cons w ws ih =>
    simp only [List.flatMap_cons, wordBytes, List.length_cons, List.cons_append, List.nil_append, takeWords]
    rw [ih, bytesWord_wordBytes]

/-- Bytes put on a byte stream come off it. -/
theorem takeBytes_append (bs rest : List Byte) : takeBytes bs.length (bs ++ rest) = some (bs, rest) := by
  induction bs with
  | nil => rfl
  | cons b bs ih => simp only [List.cons_append, List.length_cons, takeBytes, ih]

end Sys2Proof
end

