-- ==== Sys2Proof/Laws/Memory.lean ====
section
/-! SUPPORT. What the buffer operations do, cell by cell, and that each keeps the canonical form. -/

namespace Sys2Proof.Machine

@[simp] theorem read_nil (i : Nat) : Memory.read [] i = none := rfl

theorem read_cons (a : Nat) (b : BitVec 8) (m : Memory) (i : Nat) :
    Memory.read ((a, b) :: m) i = if a = i then some b else Memory.read m i := rfl

/-- A read after a write to the same cell gives the byte written. -/
@[simp] theorem read_write_same (m : Memory) (i : Nat) (v : Byte) :
    Memory.read (Memory.write m i v) i = some v := by
  induction m with
  | nil => simp [Memory.write, read_cons]
  | cons c m ih =>
    obtain ⟨a, b⟩ := c
    simp only [Memory.write]
    split
    · simp [read_cons]
    · split
      · simp [read_cons]
      · rw [read_cons, if_neg (by omega), ih]

/-- A write leaves every other cell alone. -/
theorem read_write_other (m : Memory) {i j : Nat} (v : Byte) (h : j ≠ i) :
    Memory.read (Memory.write m i v) j = Memory.read m j := by
  induction m with
  | nil => simp [Memory.write, read_cons, Ne.symm h]
  | cons c m ih =>
    obtain ⟨a, b⟩ := c
    simp only [Memory.write]
    split
    · rw [read_cons, if_neg (Ne.symm h)]
    · split
      · rename_i h1 h2
        rw [read_cons, read_cons, if_neg (Ne.symm h), if_neg (by omega)]
      · rw [read_cons, read_cons, ih]

theorem read_write (m : Memory) (i j : Nat) (v : Byte) :
    Memory.read (Memory.write m i v) j = if j = i then some v else Memory.read m j := by
  split
  · rename_i h; rw [h, read_write_same]
  · rename_i h; exact read_write_other m v h

/-- Storing bytes leaves the cells outside their range alone. -/
theorem read_storeCells_outside (bs : List Byte) (m : Memory) (start a : Nat)
    (h : a < start ∨ start + bs.length ≤ a) : Memory.read (storeCells m start bs) a = Memory.read m a := by
  induction bs generalizing m start with
  | nil => rfl
  | cons b bs ih =>
    simp only [List.length_cons] at h
    rw [storeCells, ih _ _ (by omega), read_write_other _ _ (by omega)]

/-- Storing bytes puts byte i into cell start + i. -/
theorem read_storeCells_inside (bs : List Byte) (m : Memory) (start i : Nat) (h : i < bs.length) :
    Memory.read (storeCells m start bs) (start + i) = bs[i]? := by
  induction bs generalizing m start i with
  | nil => simp at h
  | cons b bs ih =>
    rw [storeCells]
    cases i with
    | zero => rw [read_storeCells_outside _ _ _ _ (by omega)]; simp
    | succ i =>
      simp only [List.length_cons] at h
      rw [show start + (i + 1) = start + 1 + i by omega, ih _ _ _ (by omega), List.getElem?_cons_succ]

/-- Erasing a range empties its cells and leaves the others alone. -/
theorem read_eraseCells (m : Memory) (start count a : Nat) :
    Memory.read (eraseCells m start count) a =
      if a < start ∨ start + count ≤ a then Memory.read m a else none := by
  induction m with
  | nil => simp [eraseCells]
  | cons c m ih =>
    obtain ⟨k, b⟩ := c
    simp only [eraseCells, List.filter_cons] at ih ⊢
    by_cases hk : k < start ∨ start + count ≤ k
    · rw [if_pos (by simpa using hk), read_cons, read_cons, ih]
      split
      · rename_i h; subst h; rw [if_pos hk]
      · rfl
    · rw [if_neg (by simpa using hk), ih, read_cons]
      split
      · rw [if_neg (by omega)]
      · rfl

theorem loadCell_ok_iff {cap : Nat} {m : Memory} {i : Nat} {b : Byte} :
    loadCell cap m i = .ok b ↔ i < cap ∧ Memory.read m i = some b := by
  unfold loadCell
  split
  · split <;> simp_all
  · rename_i h
    exact ⟨nofun, fun h' => absurd h'.1 h⟩

theorem loadCell_of_read {cap : Nat} {m : Memory} {i : Nat} {b : Byte} (hi : i < cap)
    (hb : Memory.read m i = some b) : loadCell cap m i = .ok b := loadCell_ok_iff.mpr ⟨hi, hb⟩

/-- A load of one cell fails exactly where the cell does not exist or has no specified contents. -/
theorem loadCell_error_iff {cap : Nat} {m : Memory} {i : Nat} :
    (∃ f, loadCell cap m i = .error f) ↔ cap ≤ i ∨ Memory.read m i = none := by
  unfold loadCell
  split
  · split <;> simp_all
  · simp_all

/-- What a successful load of several cells gives. -/
theorem loadCells_ok {cap : Nat} {m : Memory} {start n : Nat} {bs : List Byte}
    (h : loadCells cap m start n = .ok bs) :
    bs.length = n ∧ ∀ i, i < n → start + i < cap ∧ bs[i]? = Memory.read m (start + i) := by
  induction n generalizing start bs with
  | zero => simp only [loadCells, Except.ok.injEq] at h; subst h; simp
  | succ n ih =>
    simp only [loadCells] at h
    split at h
    · cases h
    · rename_i b hb
      split at h
      · cases h
      · rename_i rest hrest
        cases h
        obtain ⟨hl, hr⟩ := ih hrest
        obtain ⟨hc, hm⟩ := loadCell_ok_iff.mp hb
        refine ⟨by simp [hl], fun i hi => ?_⟩
        cases i with
        | zero => exact ⟨by simpa using hc, by simpa using hm.symm⟩
        | succ i =>
          have := hr i (by omega)
          rw [show start + (i + 1) = start + 1 + i by omega]
          simpa using this

/-- A load of several cells succeeds where each exists and has contents. -/
theorem loadCells_succeeds {cap : Nat} {m : Memory} {start n : Nat}
    (h : ∀ i, i < n → start + i < cap ∧ (Memory.read m (start + i)).isSome = true) :
    ∃ bs, loadCells cap m start n = .ok bs := by
  induction n generalizing start with
  | zero => exact ⟨[], rfl⟩
  | succ n ih =>
    obtain ⟨hc, hs⟩ := h 0 (by omega)
    obtain ⟨b, hb⟩ := Option.isSome_iff_exists.mp hs
    obtain ⟨bs, hbs⟩ := ih (start := start + 1) fun i hi => by
      have := h (i + 1) (by omega)
      rwa [show start + (i + 1) = start + 1 + i by omega] at this
    exact ⟨b :: bs, by simp only [loadCells]; rw [loadCell_of_read (by simpa using hc) (by simpa using hb), hbs]⟩

/-- A load of several cells fails exactly where one of them does not exist or has no specified contents. -/
theorem loadCells_error_iff {cap : Nat} {m : Memory} {start n : Nat} :
    (∃ f, loadCells cap m start n = .error f) ↔
      ∃ i, i < n ∧ (cap ≤ start + i ∨ Memory.read m (start + i) = none) := by
  constructor
  · rintro ⟨f, hf⟩
    refine Classical.byContradiction fun hno => ?_
    obtain ⟨bs, hbs⟩ := loadCells_succeeds (cap := cap) (m := m) (start := start) (n := n) fun i hi => by
      refine ⟨Nat.lt_of_not_le fun h => hno ⟨i, hi, .inl h⟩, ?_⟩
      cases hr : Memory.read m (start + i) with
      | none => exact absurd ⟨i, hi, .inr hr⟩ hno
      | some b => rfl
    rw [hf] at hbs
    cases hbs
  · rintro ⟨i, hi, hbad⟩
    cases h : loadCells cap m start n with
    | error f => exact ⟨f, rfl⟩
    | ok bs =>
      obtain ⟨hl, hr⟩ := loadCells_ok h
      obtain ⟨hc, hm⟩ := hr i hi
      rcases hbad with hbad | hbad
      · omega
      · rw [hbad] at hm
        have : bs[i]? ≠ none := by simp [hl, hi]
        exact absurd hm this

/-! The canonical form. -/

theorem write_keys (m : Memory) (i : Nat) (v : Byte) (c : Host.Cell) (h : c ∈ Memory.write m i v) :
    c.1 = i ∨ c ∈ m := by
  induction m with
  | nil => simp only [Memory.write, List.mem_singleton] at h; left; rw [h]
  | cons d m ih =>
    obtain ⟨a, b⟩ := d
    simp only [Memory.write] at h
    split at h
    · rcases List.mem_cons.mp h with h | h
      · left; rw [h]
      · right; exact h
    · split at h
      · rcases List.mem_cons.mp h with h | h
        · left; rw [h]
        · right; exact List.mem_cons_of_mem _ h
      · rcases List.mem_cons.mp h with h | h
        · right; rw [h]; exact List.mem_cons_self
        · rcases ih h with h | h
          · exact .inl h
          · right; exact List.mem_cons_of_mem _ h

theorem write_wf {m : Memory} (h : Memory.wf m) (i : Nat) (v : Byte) : Memory.wf (Memory.write m i v) := by
  induction m with
  | nil => simp [Memory.write, Memory.wf]
  | cons c m ih =>
    obtain ⟨a, b⟩ := c
    obtain ⟨hlt, hm⟩ := List.pairwise_cons.mp h
    simp only [Memory.write]
    split
    · rename_i hi
      refine List.pairwise_cons.mpr ⟨fun d hd => ?_, h⟩
      rcases List.mem_cons.mp hd with hd | hd
      · rw [hd]; exact hi
      · exact Nat.lt_trans hi (hlt d hd)
    · split
      · rename_i hi
        subst hi
        exact List.pairwise_cons.mpr ⟨hlt, hm⟩
      · refine List.pairwise_cons.mpr ⟨fun d hd => ?_, ih hm⟩
        rcases write_keys m i v d hd with hd | hd
        · rw [hd]; show a < i; omega
        · exact hlt d hd

theorem storeCells_wf {m : Memory} (h : Memory.wf m) (start : Nat) (bs : List Byte) :
    Memory.wf (storeCells m start bs) := by
  induction bs generalizing m start with
  | nil => exact h
  | cons b bs ih => exact ih (write_wf h start b) (start + 1)

theorem eraseCells_wf {m : Memory} (h : Memory.wf m) (start count : Nat) :
    Memory.wf (eraseCells m start count) := List.Pairwise.filter _ h

/-- Both buffers of a reset state have the canonical form. -/
theorem reset_wf (p : Config.Params) : Memory.wf (State.resetWith p).TXB ∧ Memory.wf (State.resetWith p).RXB :=
  ⟨.nil, .nil⟩

end Sys2Proof.Machine
end

