-- ==== Sys2Proof/Laws/State.lean ====
section
/-! SUPPORT. One lemma for each field and each shared update of the state, each true by rfl, so that no proof unfolds a
record update. -/

namespace Sys2Proof.Machine

@[simp] theorem respond_params (st : Status) (c : Half) (d : List Byte) (t : State) : (respond st c d t).params = t.params := rfl
@[simp] theorem respond_sess (st : Status) (c : Half) (d : List Byte) (t : State) : (respond st c d t).sess = t.sess := rfl
@[simp] theorem respond_cfg_tx_pin (st : Status) (c : Half) (d : List Byte) (t : State) : (respond st c d t).cfg_tx_pin = t.cfg_tx_pin := rfl
@[simp] theorem respond_cfg_rx_pin (st : Status) (c : Half) (d : List Byte) (t : State) : (respond st c d t).cfg_rx_pin = t.cfg_rx_pin := rfl
@[simp] theorem respond_cfg_baud (st : Status) (c : Half) (d : List Byte) (t : State) : (respond st c d t).cfg_baud = t.cfg_baud := rfl
@[simp] theorem respond_bit_period (st : Status) (c : Half) (d : List Byte) (t : State) : (respond st c d t).bit_period = t.bit_period := rfl
@[simp] theorem respond_tx_busy (st : Status) (c : Half) (d : List Byte) (t : State) : (respond st c d t).tx_busy = t.tx_busy := rfl
@[simp] theorem respond_tx_pos (st : Status) (c : Half) (d : List Byte) (t : State) : (respond st c d t).tx_pos = t.tx_pos := rfl
@[simp] theorem respond_TXB (st : Status) (c : Half) (d : List Byte) (t : State) : (respond st c d t).TXB = t.TXB := rfl
@[simp] theorem respond_tx_len (st : Status) (c : Half) (d : List Byte) (t : State) : (respond st c d t).tx_len = t.tx_len := rfl
@[simp] theorem respond_tx_rd (st : Status) (c : Half) (d : List Byte) (t : State) : (respond st c d t).tx_rd = t.tx_rd := rfl
@[simp] theorem respond_tx_shift (st : Status) (c : Half) (d : List Byte) (t : State) : (respond st c d t).tx_shift = t.tx_shift := rfl
@[simp] theorem respond_tx_armed (st : Status) (c : Half) (d : List Byte) (t : State) : (respond st c d t).tx_armed = t.tx_armed := rfl
@[simp] theorem respond_tx_cnt (st : Status) (c : Half) (d : List Byte) (t : State) : (respond st c d t).tx_cnt = t.tx_cnt := rfl
@[simp] theorem respond_tx_out (st : Status) (c : Half) (d : List Byte) (t : State) : (respond st c d t).tx_out = t.tx_out := rfl
@[simp] theorem respond_tx_oe (st : Status) (c : Half) (d : List Byte) (t : State) : (respond st c d t).tx_oe = t.tx_oe := rfl
@[simp] theorem respond_RXB (st : Status) (c : Half) (d : List Byte) (t : State) : (respond st c d t).RXB = t.RXB := rfl
@[simp] theorem respond_rx_len (st : Status) (c : Half) (d : List Byte) (t : State) : (respond st c d t).rx_len = t.rx_len := rfl
@[simp] theorem respond_rx_acc (st : Status) (c : Half) (d : List Byte) (t : State) : (respond st c d t).rx_acc = t.rx_acc := rfl
@[simp] theorem respond_rx_count (st : Status) (c : Half) (d : List Byte) (t : State) : (respond st c d t).rx_count = t.rx_count := rfl
@[simp] theorem respond_edge_en (st : Status) (c : Half) (d : List Byte) (t : State) : (respond st c d t).edge_en = t.edge_en := rfl
@[simp] theorem respond_rx_armed (st : Status) (c : Half) (d : List Byte) (t : State) : (respond st c d t).rx_armed = t.rx_armed := rfl
@[simp] theorem respond_rx_cnt (st : Status) (c : Half) (d : List Byte) (t : State) : (respond st c d t).rx_cnt = t.rx_cnt := rfl
@[simp] theorem respond_rx_prev (st : Status) (c : Half) (d : List Byte) (t : State) : (respond st c d t).rx_prev = t.rx_prev := rfl
@[simp] theorem respond_rx_prev_valid (st : Status) (c : Half) (d : List Byte) (t : State) : (respond st c d t).rx_prev_valid = t.rx_prev_valid := rfl
@[simp] theorem respond_edge_pending (st : Status) (c : Half) (d : List Byte) (t : State) : (respond st c d t).edge_pending = t.edge_pending := rfl
@[simp] theorem respond_sched_fault_seen (st : Status) (c : Half) (d : List Byte) (t : State) : (respond st c d t).sched_fault_seen = t.sched_fault_seen := rfl
@[simp] theorem respond_input (st : Status) (c : Half) (d : List Byte) (t : State) : (respond st c d t).input = t.input := rfl
@[simp] theorem respond_acq_ok (st : Status) (c : Half) (d : List Byte) (t : State) : (respond st c d t).acq_ok = t.acq_ok := rfl
@[simp] theorem respond_xfer_ok (st : Status) (c : Half) (d : List Byte) (t : State) : (respond st c d t).xfer_ok = t.xfer_ok := rfl
@[simp] theorem respond_rsp (st : Status) (c : Half) (d : List Byte) (t : State) : (respond st c d t).rsp = some { status := st, count := c, data := d } := rfl

@[simp] theorem noResponse_params (t : State) : (noResponse t).params = t.params := rfl
@[simp] theorem noResponse_sess (t : State) : (noResponse t).sess = t.sess := rfl
@[simp] theorem noResponse_cfg_tx_pin (t : State) : (noResponse t).cfg_tx_pin = t.cfg_tx_pin := rfl
@[simp] theorem noResponse_cfg_rx_pin (t : State) : (noResponse t).cfg_rx_pin = t.cfg_rx_pin := rfl
@[simp] theorem noResponse_cfg_baud (t : State) : (noResponse t).cfg_baud = t.cfg_baud := rfl
@[simp] theorem noResponse_bit_period (t : State) : (noResponse t).bit_period = t.bit_period := rfl
@[simp] theorem noResponse_tx_busy (t : State) : (noResponse t).tx_busy = t.tx_busy := rfl
@[simp] theorem noResponse_tx_pos (t : State) : (noResponse t).tx_pos = t.tx_pos := rfl
@[simp] theorem noResponse_TXB (t : State) : (noResponse t).TXB = t.TXB := rfl
@[simp] theorem noResponse_tx_len (t : State) : (noResponse t).tx_len = t.tx_len := rfl
@[simp] theorem noResponse_tx_rd (t : State) : (noResponse t).tx_rd = t.tx_rd := rfl
@[simp] theorem noResponse_tx_shift (t : State) : (noResponse t).tx_shift = t.tx_shift := rfl
@[simp] theorem noResponse_tx_armed (t : State) : (noResponse t).tx_armed = t.tx_armed := rfl
@[simp] theorem noResponse_tx_cnt (t : State) : (noResponse t).tx_cnt = t.tx_cnt := rfl
@[simp] theorem noResponse_tx_out (t : State) : (noResponse t).tx_out = t.tx_out := rfl
@[simp] theorem noResponse_tx_oe (t : State) : (noResponse t).tx_oe = t.tx_oe := rfl
@[simp] theorem noResponse_RXB (t : State) : (noResponse t).RXB = t.RXB := rfl
@[simp] theorem noResponse_rx_len (t : State) : (noResponse t).rx_len = t.rx_len := rfl
@[simp] theorem noResponse_rx_acc (t : State) : (noResponse t).rx_acc = t.rx_acc := rfl
@[simp] theorem noResponse_rx_count (t : State) : (noResponse t).rx_count = t.rx_count := rfl
@[simp] theorem noResponse_edge_en (t : State) : (noResponse t).edge_en = t.edge_en := rfl
@[simp] theorem noResponse_rx_armed (t : State) : (noResponse t).rx_armed = t.rx_armed := rfl
@[simp] theorem noResponse_rx_cnt (t : State) : (noResponse t).rx_cnt = t.rx_cnt := rfl
@[simp] theorem noResponse_rx_prev (t : State) : (noResponse t).rx_prev = t.rx_prev := rfl
@[simp] theorem noResponse_rx_prev_valid (t : State) : (noResponse t).rx_prev_valid = t.rx_prev_valid := rfl
@[simp] theorem noResponse_edge_pending (t : State) : (noResponse t).edge_pending = t.edge_pending := rfl
@[simp] theorem noResponse_sched_fault_seen (t : State) : (noResponse t).sched_fault_seen = t.sched_fault_seen := rfl
@[simp] theorem noResponse_input (t : State) : (noResponse t).input = t.input := rfl
@[simp] theorem noResponse_acq_ok (t : State) : (noResponse t).acq_ok = t.acq_ok := rfl
@[simp] theorem noResponse_xfer_ok (t : State) : (noResponse t).xfer_ok = t.xfer_ok := rfl
@[simp] theorem noResponse_rsp (t : State) : (noResponse t).rsp = none := rfl

@[simp] theorem armTx_params (p t : State) : (armTx p t).params = t.params := rfl
@[simp] theorem armTx_sess (p t : State) : (armTx p t).sess = t.sess := rfl
@[simp] theorem armTx_cfg_tx_pin (p t : State) : (armTx p t).cfg_tx_pin = t.cfg_tx_pin := rfl
@[simp] theorem armTx_cfg_rx_pin (p t : State) : (armTx p t).cfg_rx_pin = t.cfg_rx_pin := rfl
@[simp] theorem armTx_cfg_baud (p t : State) : (armTx p t).cfg_baud = t.cfg_baud := rfl
@[simp] theorem armTx_bit_period (p t : State) : (armTx p t).bit_period = t.bit_period := rfl
@[simp] theorem armTx_tx_busy (p t : State) : (armTx p t).tx_busy = t.tx_busy := rfl
@[simp] theorem armTx_tx_pos (p t : State) : (armTx p t).tx_pos = t.tx_pos := rfl
@[simp] theorem armTx_TXB (p t : State) : (armTx p t).TXB = t.TXB := rfl
@[simp] theorem armTx_tx_len (p t : State) : (armTx p t).tx_len = t.tx_len := rfl
@[simp] theorem armTx_tx_rd (p t : State) : (armTx p t).tx_rd = t.tx_rd := rfl
@[simp] theorem armTx_tx_shift (p t : State) : (armTx p t).tx_shift = t.tx_shift := rfl
@[simp] theorem armTx_tx_armed (p t : State) : (armTx p t).tx_armed = true := rfl
@[simp] theorem armTx_tx_cnt (p t : State) : (armTx p t).tx_cnt = p.bit_period := rfl
@[simp] theorem armTx_tx_out (p t : State) : (armTx p t).tx_out = t.tx_out := rfl
@[simp] theorem armTx_tx_oe (p t : State) : (armTx p t).tx_oe = t.tx_oe := rfl
@[simp] theorem armTx_RXB (p t : State) : (armTx p t).RXB = t.RXB := rfl
@[simp] theorem armTx_rx_len (p t : State) : (armTx p t).rx_len = t.rx_len := rfl
@[simp] theorem armTx_rx_acc (p t : State) : (armTx p t).rx_acc = t.rx_acc := rfl
@[simp] theorem armTx_rx_count (p t : State) : (armTx p t).rx_count = t.rx_count := rfl
@[simp] theorem armTx_edge_en (p t : State) : (armTx p t).edge_en = t.edge_en := rfl
@[simp] theorem armTx_rx_armed (p t : State) : (armTx p t).rx_armed = t.rx_armed := rfl
@[simp] theorem armTx_rx_cnt (p t : State) : (armTx p t).rx_cnt = t.rx_cnt := rfl
@[simp] theorem armTx_rx_prev (p t : State) : (armTx p t).rx_prev = t.rx_prev := rfl
@[simp] theorem armTx_rx_prev_valid (p t : State) : (armTx p t).rx_prev_valid = t.rx_prev_valid := rfl
@[simp] theorem armTx_edge_pending (p t : State) : (armTx p t).edge_pending = t.edge_pending := rfl
@[simp] theorem armTx_sched_fault_seen (p t : State) : (armTx p t).sched_fault_seen = t.sched_fault_seen := rfl
@[simp] theorem armTx_input (p t : State) : (armTx p t).input = t.input := rfl
@[simp] theorem armTx_acq_ok (p t : State) : (armTx p t).acq_ok = t.acq_ok := rfl
@[simp] theorem armTx_xfer_ok (p t : State) : (armTx p t).xfer_ok = t.xfer_ok := rfl
@[simp] theorem armTx_rsp (p t : State) : (armTx p t).rsp = t.rsp := rfl

@[simp] theorem armRx_params (p t : State) : (armRx p t).params = t.params := rfl
@[simp] theorem armRx_sess (p t : State) : (armRx p t).sess = t.sess := rfl
@[simp] theorem armRx_cfg_tx_pin (p t : State) : (armRx p t).cfg_tx_pin = t.cfg_tx_pin := rfl
@[simp] theorem armRx_cfg_rx_pin (p t : State) : (armRx p t).cfg_rx_pin = t.cfg_rx_pin := rfl
@[simp] theorem armRx_cfg_baud (p t : State) : (armRx p t).cfg_baud = t.cfg_baud := rfl
@[simp] theorem armRx_bit_period (p t : State) : (armRx p t).bit_period = t.bit_period := rfl
@[simp] theorem armRx_tx_busy (p t : State) : (armRx p t).tx_busy = t.tx_busy := rfl
@[simp] theorem armRx_tx_pos (p t : State) : (armRx p t).tx_pos = t.tx_pos := rfl
@[simp] theorem armRx_TXB (p t : State) : (armRx p t).TXB = t.TXB := rfl
@[simp] theorem armRx_tx_len (p t : State) : (armRx p t).tx_len = t.tx_len := rfl
@[simp] theorem armRx_tx_rd (p t : State) : (armRx p t).tx_rd = t.tx_rd := rfl
@[simp] theorem armRx_tx_shift (p t : State) : (armRx p t).tx_shift = t.tx_shift := rfl
@[simp] theorem armRx_tx_armed (p t : State) : (armRx p t).tx_armed = t.tx_armed := rfl
@[simp] theorem armRx_tx_cnt (p t : State) : (armRx p t).tx_cnt = t.tx_cnt := rfl
@[simp] theorem armRx_tx_out (p t : State) : (armRx p t).tx_out = t.tx_out := rfl
@[simp] theorem armRx_tx_oe (p t : State) : (armRx p t).tx_oe = t.tx_oe := rfl
@[simp] theorem armRx_RXB (p t : State) : (armRx p t).RXB = t.RXB := rfl
@[simp] theorem armRx_rx_len (p t : State) : (armRx p t).rx_len = t.rx_len := rfl
@[simp] theorem armRx_rx_acc (p t : State) : (armRx p t).rx_acc = t.rx_acc := rfl
@[simp] theorem armRx_rx_count (p t : State) : (armRx p t).rx_count = t.rx_count := rfl
@[simp] theorem armRx_edge_en (p t : State) : (armRx p t).edge_en = t.edge_en := rfl
@[simp] theorem armRx_rx_armed (p t : State) : (armRx p t).rx_armed = true := rfl
@[simp] theorem armRx_rx_cnt (p t : State) : (armRx p t).rx_cnt = p.bit_period := rfl
@[simp] theorem armRx_rx_prev (p t : State) : (armRx p t).rx_prev = t.rx_prev := rfl
@[simp] theorem armRx_rx_prev_valid (p t : State) : (armRx p t).rx_prev_valid = t.rx_prev_valid := rfl
@[simp] theorem armRx_edge_pending (p t : State) : (armRx p t).edge_pending = t.edge_pending := rfl
@[simp] theorem armRx_sched_fault_seen (p t : State) : (armRx p t).sched_fault_seen = t.sched_fault_seen := rfl
@[simp] theorem armRx_input (p t : State) : (armRx p t).input = t.input := rfl
@[simp] theorem armRx_acq_ok (p t : State) : (armRx p t).acq_ok = t.acq_ok := rfl
@[simp] theorem armRx_xfer_ok (p t : State) : (armRx p t).xfer_ok = t.xfer_ok := rfl
@[simp] theorem armRx_rsp (p t : State) : (armRx p t).rsp = t.rsp := rfl

@[simp] theorem cancelTx_params (t : State) : (cancelTx t).params = t.params := rfl
@[simp] theorem cancelTx_sess (t : State) : (cancelTx t).sess = t.sess := rfl
@[simp] theorem cancelTx_cfg_tx_pin (t : State) : (cancelTx t).cfg_tx_pin = t.cfg_tx_pin := rfl
@[simp] theorem cancelTx_cfg_rx_pin (t : State) : (cancelTx t).cfg_rx_pin = t.cfg_rx_pin := rfl
@[simp] theorem cancelTx_cfg_baud (t : State) : (cancelTx t).cfg_baud = t.cfg_baud := rfl
@[simp] theorem cancelTx_bit_period (t : State) : (cancelTx t).bit_period = t.bit_period := rfl
@[simp] theorem cancelTx_tx_busy (t : State) : (cancelTx t).tx_busy = t.tx_busy := rfl
@[simp] theorem cancelTx_tx_pos (t : State) : (cancelTx t).tx_pos = t.tx_pos := rfl
@[simp] theorem cancelTx_TXB (t : State) : (cancelTx t).TXB = t.TXB := rfl
@[simp] theorem cancelTx_tx_len (t : State) : (cancelTx t).tx_len = t.tx_len := rfl
@[simp] theorem cancelTx_tx_rd (t : State) : (cancelTx t).tx_rd = t.tx_rd := rfl
@[simp] theorem cancelTx_tx_shift (t : State) : (cancelTx t).tx_shift = t.tx_shift := rfl
@[simp] theorem cancelTx_tx_armed (t : State) : (cancelTx t).tx_armed = false := rfl
@[simp] theorem cancelTx_tx_cnt (t : State) : (cancelTx t).tx_cnt = t.tx_cnt := rfl
@[simp] theorem cancelTx_tx_out (t : State) : (cancelTx t).tx_out = t.tx_out := rfl
@[simp] theorem cancelTx_tx_oe (t : State) : (cancelTx t).tx_oe = t.tx_oe := rfl
@[simp] theorem cancelTx_RXB (t : State) : (cancelTx t).RXB = t.RXB := rfl
@[simp] theorem cancelTx_rx_len (t : State) : (cancelTx t).rx_len = t.rx_len := rfl
@[simp] theorem cancelTx_rx_acc (t : State) : (cancelTx t).rx_acc = t.rx_acc := rfl
@[simp] theorem cancelTx_rx_count (t : State) : (cancelTx t).rx_count = t.rx_count := rfl
@[simp] theorem cancelTx_edge_en (t : State) : (cancelTx t).edge_en = t.edge_en := rfl
@[simp] theorem cancelTx_rx_armed (t : State) : (cancelTx t).rx_armed = t.rx_armed := rfl
@[simp] theorem cancelTx_rx_cnt (t : State) : (cancelTx t).rx_cnt = t.rx_cnt := rfl
@[simp] theorem cancelTx_rx_prev (t : State) : (cancelTx t).rx_prev = t.rx_prev := rfl
@[simp] theorem cancelTx_rx_prev_valid (t : State) : (cancelTx t).rx_prev_valid = t.rx_prev_valid := rfl
@[simp] theorem cancelTx_edge_pending (t : State) : (cancelTx t).edge_pending = t.edge_pending := rfl
@[simp] theorem cancelTx_sched_fault_seen (t : State) : (cancelTx t).sched_fault_seen = t.sched_fault_seen := rfl
@[simp] theorem cancelTx_input (t : State) : (cancelTx t).input = t.input := rfl
@[simp] theorem cancelTx_acq_ok (t : State) : (cancelTx t).acq_ok = t.acq_ok := rfl
@[simp] theorem cancelTx_xfer_ok (t : State) : (cancelTx t).xfer_ok = t.xfer_ok := rfl
@[simp] theorem cancelTx_rsp (t : State) : (cancelTx t).rsp = t.rsp := rfl

@[simp] theorem cancelRx_params (t : State) : (cancelRx t).params = t.params := rfl
@[simp] theorem cancelRx_sess (t : State) : (cancelRx t).sess = t.sess := rfl
@[simp] theorem cancelRx_cfg_tx_pin (t : State) : (cancelRx t).cfg_tx_pin = t.cfg_tx_pin := rfl
@[simp] theorem cancelRx_cfg_rx_pin (t : State) : (cancelRx t).cfg_rx_pin = t.cfg_rx_pin := rfl
@[simp] theorem cancelRx_cfg_baud (t : State) : (cancelRx t).cfg_baud = t.cfg_baud := rfl
@[simp] theorem cancelRx_bit_period (t : State) : (cancelRx t).bit_period = t.bit_period := rfl
@[simp] theorem cancelRx_tx_busy (t : State) : (cancelRx t).tx_busy = t.tx_busy := rfl
@[simp] theorem cancelRx_tx_pos (t : State) : (cancelRx t).tx_pos = t.tx_pos := rfl
@[simp] theorem cancelRx_TXB (t : State) : (cancelRx t).TXB = t.TXB := rfl
@[simp] theorem cancelRx_tx_len (t : State) : (cancelRx t).tx_len = t.tx_len := rfl
@[simp] theorem cancelRx_tx_rd (t : State) : (cancelRx t).tx_rd = t.tx_rd := rfl
@[simp] theorem cancelRx_tx_shift (t : State) : (cancelRx t).tx_shift = t.tx_shift := rfl
@[simp] theorem cancelRx_tx_armed (t : State) : (cancelRx t).tx_armed = t.tx_armed := rfl
@[simp] theorem cancelRx_tx_cnt (t : State) : (cancelRx t).tx_cnt = t.tx_cnt := rfl
@[simp] theorem cancelRx_tx_out (t : State) : (cancelRx t).tx_out = t.tx_out := rfl
@[simp] theorem cancelRx_tx_oe (t : State) : (cancelRx t).tx_oe = t.tx_oe := rfl
@[simp] theorem cancelRx_RXB (t : State) : (cancelRx t).RXB = t.RXB := rfl
@[simp] theorem cancelRx_rx_len (t : State) : (cancelRx t).rx_len = t.rx_len := rfl
@[simp] theorem cancelRx_rx_acc (t : State) : (cancelRx t).rx_acc = t.rx_acc := rfl
@[simp] theorem cancelRx_rx_count (t : State) : (cancelRx t).rx_count = t.rx_count := rfl
@[simp] theorem cancelRx_edge_en (t : State) : (cancelRx t).edge_en = t.edge_en := rfl
@[simp] theorem cancelRx_rx_armed (t : State) : (cancelRx t).rx_armed = false := rfl
@[simp] theorem cancelRx_rx_cnt (t : State) : (cancelRx t).rx_cnt = t.rx_cnt := rfl
@[simp] theorem cancelRx_rx_prev (t : State) : (cancelRx t).rx_prev = t.rx_prev := rfl
@[simp] theorem cancelRx_rx_prev_valid (t : State) : (cancelRx t).rx_prev_valid = t.rx_prev_valid := rfl
@[simp] theorem cancelRx_edge_pending (t : State) : (cancelRx t).edge_pending = t.edge_pending := rfl
@[simp] theorem cancelRx_sched_fault_seen (t : State) : (cancelRx t).sched_fault_seen = t.sched_fault_seen := rfl
@[simp] theorem cancelRx_input (t : State) : (cancelRx t).input = t.input := rfl
@[simp] theorem cancelRx_acq_ok (t : State) : (cancelRx t).acq_ok = t.acq_ok := rfl
@[simp] theorem cancelRx_xfer_ok (t : State) : (cancelRx t).xfer_ok = t.xfer_ok := rfl
@[simp] theorem cancelRx_rsp (t : State) : (cancelRx t).rsp = t.rsp := rfl

@[simp] theorem faultEntry_params (t : State) : (faultEntry t).params = t.params := rfl
@[simp] theorem faultEntry_sess (t : State) : (faultEntry t).sess = .faulted := rfl
@[simp] theorem faultEntry_cfg_tx_pin (t : State) : (faultEntry t).cfg_tx_pin = t.cfg_tx_pin := rfl
@[simp] theorem faultEntry_cfg_rx_pin (t : State) : (faultEntry t).cfg_rx_pin = t.cfg_rx_pin := rfl
@[simp] theorem faultEntry_cfg_baud (t : State) : (faultEntry t).cfg_baud = t.cfg_baud := rfl
@[simp] theorem faultEntry_bit_period (t : State) : (faultEntry t).bit_period = t.bit_period := rfl
@[simp] theorem faultEntry_tx_busy (t : State) : (faultEntry t).tx_busy = t.tx_busy := rfl
@[simp] theorem faultEntry_tx_pos (t : State) : (faultEntry t).tx_pos = t.tx_pos := rfl
@[simp] theorem faultEntry_TXB (t : State) : (faultEntry t).TXB = t.TXB := rfl
@[simp] theorem faultEntry_tx_len (t : State) : (faultEntry t).tx_len = t.tx_len := rfl
@[simp] theorem faultEntry_tx_rd (t : State) : (faultEntry t).tx_rd = t.tx_rd := rfl
@[simp] theorem faultEntry_tx_shift (t : State) : (faultEntry t).tx_shift = t.tx_shift := rfl
@[simp] theorem faultEntry_tx_armed (t : State) : (faultEntry t).tx_armed = false := rfl
@[simp] theorem faultEntry_tx_cnt (t : State) : (faultEntry t).tx_cnt = t.tx_cnt := rfl
@[simp] theorem faultEntry_tx_out (t : State) : (faultEntry t).tx_out = t.tx_out := rfl
@[simp] theorem faultEntry_tx_oe (t : State) : (faultEntry t).tx_oe = t.tx_oe := rfl
@[simp] theorem faultEntry_RXB (t : State) : (faultEntry t).RXB = t.RXB := rfl
@[simp] theorem faultEntry_rx_len (t : State) : (faultEntry t).rx_len = t.rx_len := rfl
@[simp] theorem faultEntry_rx_acc (t : State) : (faultEntry t).rx_acc = t.rx_acc := rfl
@[simp] theorem faultEntry_rx_count (t : State) : (faultEntry t).rx_count = t.rx_count := rfl
@[simp] theorem faultEntry_edge_en (t : State) : (faultEntry t).edge_en = false := rfl
@[simp] theorem faultEntry_rx_armed (t : State) : (faultEntry t).rx_armed = false := rfl
@[simp] theorem faultEntry_rx_cnt (t : State) : (faultEntry t).rx_cnt = t.rx_cnt := rfl
@[simp] theorem faultEntry_rx_prev (t : State) : (faultEntry t).rx_prev = t.rx_prev := rfl
@[simp] theorem faultEntry_rx_prev_valid (t : State) : (faultEntry t).rx_prev_valid = t.rx_prev_valid := rfl
@[simp] theorem faultEntry_edge_pending (t : State) : (faultEntry t).edge_pending = false := rfl
@[simp] theorem faultEntry_sched_fault_seen (t : State) : (faultEntry t).sched_fault_seen = true := rfl
@[simp] theorem faultEntry_input (t : State) : (faultEntry t).input = t.input := rfl
@[simp] theorem faultEntry_acq_ok (t : State) : (faultEntry t).acq_ok = t.acq_ok := rfl
@[simp] theorem faultEntry_xfer_ok (t : State) : (faultEntry t).xfer_ok = t.xfer_ok := rfl
@[simp] theorem faultEntry_rsp (t : State) : (faultEntry t).rsp = t.rsp := rfl

@[simp] theorem accept_params (t : State) (p : StepInput) (r : List StepInput) : (State.accept t p r).params = t.params := rfl
@[simp] theorem accept_sess (t : State) (p : StepInput) (r : List StepInput) : (State.accept t p r).sess = t.sess := rfl
@[simp] theorem accept_cfg_tx_pin (t : State) (p : StepInput) (r : List StepInput) : (State.accept t p r).cfg_tx_pin = t.cfg_tx_pin := rfl
@[simp] theorem accept_cfg_rx_pin (t : State) (p : StepInput) (r : List StepInput) : (State.accept t p r).cfg_rx_pin = t.cfg_rx_pin := rfl
@[simp] theorem accept_cfg_baud (t : State) (p : StepInput) (r : List StepInput) : (State.accept t p r).cfg_baud = t.cfg_baud := rfl
@[simp] theorem accept_bit_period (t : State) (p : StepInput) (r : List StepInput) : (State.accept t p r).bit_period = t.bit_period := rfl
@[simp] theorem accept_tx_busy (t : State) (p : StepInput) (r : List StepInput) : (State.accept t p r).tx_busy = t.tx_busy := rfl
@[simp] theorem accept_tx_pos (t : State) (p : StepInput) (r : List StepInput) : (State.accept t p r).tx_pos = t.tx_pos := rfl
@[simp] theorem accept_TXB (t : State) (p : StepInput) (r : List StepInput) : (State.accept t p r).TXB = t.TXB := rfl
@[simp] theorem accept_tx_len (t : State) (p : StepInput) (r : List StepInput) : (State.accept t p r).tx_len = t.tx_len := rfl
@[simp] theorem accept_tx_rd (t : State) (p : StepInput) (r : List StepInput) : (State.accept t p r).tx_rd = t.tx_rd := rfl
@[simp] theorem accept_tx_shift (t : State) (p : StepInput) (r : List StepInput) : (State.accept t p r).tx_shift = t.tx_shift := rfl
@[simp] theorem accept_tx_armed (t : State) (p : StepInput) (r : List StepInput) : (State.accept t p r).tx_armed = t.tx_armed := rfl
@[simp] theorem accept_tx_cnt (t : State) (p : StepInput) (r : List StepInput) : (State.accept t p r).tx_cnt = t.tx_cnt := rfl
@[simp] theorem accept_tx_out (t : State) (p : StepInput) (r : List StepInput) : (State.accept t p r).tx_out = t.tx_out := rfl
@[simp] theorem accept_tx_oe (t : State) (p : StepInput) (r : List StepInput) : (State.accept t p r).tx_oe = t.tx_oe := rfl
@[simp] theorem accept_RXB (t : State) (p : StepInput) (r : List StepInput) : (State.accept t p r).RXB = t.RXB := rfl
@[simp] theorem accept_rx_len (t : State) (p : StepInput) (r : List StepInput) : (State.accept t p r).rx_len = t.rx_len := rfl
@[simp] theorem accept_rx_acc (t : State) (p : StepInput) (r : List StepInput) : (State.accept t p r).rx_acc = t.rx_acc := rfl
@[simp] theorem accept_rx_count (t : State) (p : StepInput) (r : List StepInput) : (State.accept t p r).rx_count = t.rx_count := rfl
@[simp] theorem accept_edge_en (t : State) (p : StepInput) (r : List StepInput) : (State.accept t p r).edge_en = t.edge_en := rfl
@[simp] theorem accept_rx_armed (t : State) (p : StepInput) (r : List StepInput) : (State.accept t p r).rx_armed = t.rx_armed := rfl
@[simp] theorem accept_rx_cnt (t : State) (p : StepInput) (r : List StepInput) : (State.accept t p r).rx_cnt = t.rx_cnt := rfl
@[simp] theorem accept_rx_prev (t : State) (p : StepInput) (r : List StepInput) : (State.accept t p r).rx_prev = t.rx_prev := rfl
@[simp] theorem accept_rx_prev_valid (t : State) (p : StepInput) (r : List StepInput) : (State.accept t p r).rx_prev_valid = t.rx_prev_valid := rfl
@[simp] theorem accept_edge_pending (t : State) (p : StepInput) (r : List StepInput) : (State.accept t p r).edge_pending = t.edge_pending := rfl
@[simp] theorem accept_sched_fault_seen (t : State) (p : StepInput) (r : List StepInput) : (State.accept t p r).sched_fault_seen = t.sched_fault_seen := rfl
@[simp] theorem accept_input (t : State) (p : StepInput) (r : List StepInput) : (State.accept t p r).input = r := rfl
@[simp] theorem accept_acq_ok (t : State) (p : StepInput) (r : List StepInput) : (State.accept t p r).acq_ok = p.acqOk := rfl
@[simp] theorem accept_xfer_ok (t : State) (p : StepInput) (r : List StepInput) : (State.accept t p r).xfer_ok = p.xferOk := rfl
@[simp] theorem accept_rsp (t : State) (p : StepInput) (r : List StepInput) : (State.accept t p r).rsp = t.rsp := rfl

@[simp] theorem prevUpdate_params (rx : Bool) (t : State) : (prevUpdate rx t).params = t.params := rfl
@[simp] theorem prevUpdate_sess (rx : Bool) (t : State) : (prevUpdate rx t).sess = t.sess := rfl
@[simp] theorem prevUpdate_cfg_tx_pin (rx : Bool) (t : State) : (prevUpdate rx t).cfg_tx_pin = t.cfg_tx_pin := rfl
@[simp] theorem prevUpdate_cfg_rx_pin (rx : Bool) (t : State) : (prevUpdate rx t).cfg_rx_pin = t.cfg_rx_pin := rfl
@[simp] theorem prevUpdate_cfg_baud (rx : Bool) (t : State) : (prevUpdate rx t).cfg_baud = t.cfg_baud := rfl
@[simp] theorem prevUpdate_bit_period (rx : Bool) (t : State) : (prevUpdate rx t).bit_period = t.bit_period := rfl
@[simp] theorem prevUpdate_tx_busy (rx : Bool) (t : State) : (prevUpdate rx t).tx_busy = t.tx_busy := rfl
@[simp] theorem prevUpdate_tx_pos (rx : Bool) (t : State) : (prevUpdate rx t).tx_pos = t.tx_pos := rfl
@[simp] theorem prevUpdate_TXB (rx : Bool) (t : State) : (prevUpdate rx t).TXB = t.TXB := rfl
@[simp] theorem prevUpdate_tx_len (rx : Bool) (t : State) : (prevUpdate rx t).tx_len = t.tx_len := rfl
@[simp] theorem prevUpdate_tx_rd (rx : Bool) (t : State) : (prevUpdate rx t).tx_rd = t.tx_rd := rfl
@[simp] theorem prevUpdate_tx_shift (rx : Bool) (t : State) : (prevUpdate rx t).tx_shift = t.tx_shift := rfl
@[simp] theorem prevUpdate_tx_armed (rx : Bool) (t : State) : (prevUpdate rx t).tx_armed = t.tx_armed := rfl
@[simp] theorem prevUpdate_tx_cnt (rx : Bool) (t : State) : (prevUpdate rx t).tx_cnt = t.tx_cnt := rfl
@[simp] theorem prevUpdate_tx_out (rx : Bool) (t : State) : (prevUpdate rx t).tx_out = t.tx_out := rfl
@[simp] theorem prevUpdate_tx_oe (rx : Bool) (t : State) : (prevUpdate rx t).tx_oe = t.tx_oe := rfl
@[simp] theorem prevUpdate_RXB (rx : Bool) (t : State) : (prevUpdate rx t).RXB = t.RXB := rfl
@[simp] theorem prevUpdate_rx_len (rx : Bool) (t : State) : (prevUpdate rx t).rx_len = t.rx_len := rfl
@[simp] theorem prevUpdate_rx_acc (rx : Bool) (t : State) : (prevUpdate rx t).rx_acc = t.rx_acc := rfl
@[simp] theorem prevUpdate_rx_count (rx : Bool) (t : State) : (prevUpdate rx t).rx_count = t.rx_count := rfl
@[simp] theorem prevUpdate_edge_en (rx : Bool) (t : State) : (prevUpdate rx t).edge_en = t.edge_en := rfl
@[simp] theorem prevUpdate_rx_armed (rx : Bool) (t : State) : (prevUpdate rx t).rx_armed = t.rx_armed := rfl
@[simp] theorem prevUpdate_rx_cnt (rx : Bool) (t : State) : (prevUpdate rx t).rx_cnt = t.rx_cnt := rfl
@[simp] theorem prevUpdate_rx_prev (rx : Bool) (t : State) : (prevUpdate rx t).rx_prev = rx := rfl
@[simp] theorem prevUpdate_rx_prev_valid (rx : Bool) (t : State) : (prevUpdate rx t).rx_prev_valid = true := rfl
@[simp] theorem prevUpdate_edge_pending (rx : Bool) (t : State) : (prevUpdate rx t).edge_pending = t.edge_pending := rfl
@[simp] theorem prevUpdate_sched_fault_seen (rx : Bool) (t : State) : (prevUpdate rx t).sched_fault_seen = t.sched_fault_seen := rfl
@[simp] theorem prevUpdate_input (rx : Bool) (t : State) : (prevUpdate rx t).input = t.input := rfl
@[simp] theorem prevUpdate_acq_ok (rx : Bool) (t : State) : (prevUpdate rx t).acq_ok = t.acq_ok := rfl
@[simp] theorem prevUpdate_xfer_ok (rx : Bool) (t : State) : (prevUpdate rx t).xfer_ok = t.xfer_ok := rfl
@[simp] theorem prevUpdate_rsp (rx : Bool) (t : State) : (prevUpdate rx t).rsp = t.rsp := rfl

@[simp] theorem endSession_params (t : State) : (endSession t).params = t.params := rfl
@[simp] theorem endSession_sess (t : State) : (endSession t).sess = .unconfigured := rfl
@[simp] theorem endSession_cfg_tx_pin (t : State) : (endSession t).cfg_tx_pin = 0 := rfl
@[simp] theorem endSession_cfg_rx_pin (t : State) : (endSession t).cfg_rx_pin = 0 := rfl
@[simp] theorem endSession_cfg_baud (t : State) : (endSession t).cfg_baud = 0 := rfl
@[simp] theorem endSession_bit_period (t : State) : (endSession t).bit_period = 0 := rfl
@[simp] theorem endSession_tx_busy (t : State) : (endSession t).tx_busy = false := rfl
@[simp] theorem endSession_tx_pos (t : State) : (endSession t).tx_pos = .start := rfl
@[simp] theorem endSession_TXB (t : State) : (endSession t).TXB = t.TXB := rfl
@[simp] theorem endSession_tx_len (t : State) : (endSession t).tx_len = 0 := rfl
@[simp] theorem endSession_tx_rd (t : State) : (endSession t).tx_rd = 0 := rfl
@[simp] theorem endSession_tx_shift (t : State) : (endSession t).tx_shift = 0 := rfl
@[simp] theorem endSession_tx_armed (t : State) : (endSession t).tx_armed = false := rfl
@[simp] theorem endSession_tx_cnt (t : State) : (endSession t).tx_cnt = 0 := rfl
@[simp] theorem endSession_tx_out (t : State) : (endSession t).tx_out = true := rfl
@[simp] theorem endSession_tx_oe (t : State) : (endSession t).tx_oe = false := rfl
@[simp] theorem endSession_RXB (t : State) : (endSession t).RXB = t.RXB := rfl
@[simp] theorem endSession_rx_len (t : State) : (endSession t).rx_len = 0 := rfl
@[simp] theorem endSession_rx_acc (t : State) : (endSession t).rx_acc = 0 := rfl
@[simp] theorem endSession_rx_count (t : State) : (endSession t).rx_count = 0 := rfl
@[simp] theorem endSession_edge_en (t : State) : (endSession t).edge_en = false := rfl
@[simp] theorem endSession_rx_armed (t : State) : (endSession t).rx_armed = false := rfl
@[simp] theorem endSession_rx_cnt (t : State) : (endSession t).rx_cnt = 0 := rfl
@[simp] theorem endSession_rx_prev (t : State) : (endSession t).rx_prev = true := rfl
@[simp] theorem endSession_rx_prev_valid (t : State) : (endSession t).rx_prev_valid = false := rfl
@[simp] theorem endSession_edge_pending (t : State) : (endSession t).edge_pending = false := rfl
@[simp] theorem endSession_sched_fault_seen (t : State) : (endSession t).sched_fault_seen = t.sched_fault_seen := rfl
@[simp] theorem endSession_input (t : State) : (endSession t).input = t.input := rfl
@[simp] theorem endSession_acq_ok (t : State) : (endSession t).acq_ok = t.acq_ok := rfl
@[simp] theorem endSession_xfer_ok (t : State) : (endSession t).xfer_ok = t.xfer_ok := rfl
@[simp] theorem endSession_rsp (t : State) : (endSession t).rsp = t.rsp := rfl

@[simp] theorem initSession_params (a b c : Word) (p : Nat) (t : State) : (initSession a b c p t).params = t.params := rfl
@[simp] theorem initSession_sess (a b c : Word) (p : Nat) (t : State) : (initSession a b c p t).sess = .configured := rfl
@[simp] theorem initSession_cfg_tx_pin (a b c : Word) (p : Nat) (t : State) : (initSession a b c p t).cfg_tx_pin = a := rfl
@[simp] theorem initSession_cfg_rx_pin (a b c : Word) (p : Nat) (t : State) : (initSession a b c p t).cfg_rx_pin = b := rfl
@[simp] theorem initSession_cfg_baud (a b c : Word) (p : Nat) (t : State) : (initSession a b c p t).cfg_baud = c := rfl
@[simp] theorem initSession_bit_period (a b c : Word) (p : Nat) (t : State) : (initSession a b c p t).bit_period = p := rfl
@[simp] theorem initSession_tx_busy (a b c : Word) (p : Nat) (t : State) : (initSession a b c p t).tx_busy = false := rfl
@[simp] theorem initSession_tx_pos (a b c : Word) (p : Nat) (t : State) : (initSession a b c p t).tx_pos = .start := rfl
@[simp] theorem initSession_TXB (a b c : Word) (p : Nat) (t : State) : (initSession a b c p t).TXB = t.TXB := rfl
@[simp] theorem initSession_tx_len (a b c : Word) (p : Nat) (t : State) : (initSession a b c p t).tx_len = 0 := rfl
@[simp] theorem initSession_tx_rd (a b c : Word) (p : Nat) (t : State) : (initSession a b c p t).tx_rd = 0 := rfl
@[simp] theorem initSession_tx_shift (a b c : Word) (p : Nat) (t : State) : (initSession a b c p t).tx_shift = 0 := rfl
@[simp] theorem initSession_tx_armed (a b c : Word) (p : Nat) (t : State) : (initSession a b c p t).tx_armed = false := rfl
@[simp] theorem initSession_tx_cnt (a b c : Word) (p : Nat) (t : State) : (initSession a b c p t).tx_cnt = 0 := rfl
@[simp] theorem initSession_tx_out (a b c : Word) (p : Nat) (t : State) : (initSession a b c p t).tx_out = true := rfl
@[simp] theorem initSession_tx_oe (a b c : Word) (p : Nat) (t : State) : (initSession a b c p t).tx_oe = true := rfl
@[simp] theorem initSession_RXB (a b c : Word) (p : Nat) (t : State) : (initSession a b c p t).RXB = t.RXB := rfl
@[simp] theorem initSession_rx_len (a b c : Word) (p : Nat) (t : State) : (initSession a b c p t).rx_len = 0 := rfl
@[simp] theorem initSession_rx_acc (a b c : Word) (p : Nat) (t : State) : (initSession a b c p t).rx_acc = 0 := rfl
@[simp] theorem initSession_rx_count (a b c : Word) (p : Nat) (t : State) : (initSession a b c p t).rx_count = 0 := rfl
@[simp] theorem initSession_edge_en (a b c : Word) (p : Nat) (t : State) : (initSession a b c p t).edge_en = true := rfl
@[simp] theorem initSession_rx_armed (a b c : Word) (p : Nat) (t : State) : (initSession a b c p t).rx_armed = false := rfl
@[simp] theorem initSession_rx_cnt (a b c : Word) (p : Nat) (t : State) : (initSession a b c p t).rx_cnt = 0 := rfl
@[simp] theorem initSession_rx_prev (a b c : Word) (p : Nat) (t : State) : (initSession a b c p t).rx_prev = true := rfl
@[simp] theorem initSession_rx_prev_valid (a b c : Word) (p : Nat) (t : State) : (initSession a b c p t).rx_prev_valid = false := rfl
@[simp] theorem initSession_edge_pending (a b c : Word) (p : Nat) (t : State) : (initSession a b c p t).edge_pending = false := rfl
@[simp] theorem initSession_sched_fault_seen (a b c : Word) (p : Nat) (t : State) : (initSession a b c p t).sched_fault_seen = t.sched_fault_seen := rfl
@[simp] theorem initSession_input (a b c : Word) (p : Nat) (t : State) : (initSession a b c p t).input = t.input := rfl
@[simp] theorem initSession_acq_ok (a b c : Word) (p : Nat) (t : State) : (initSession a b c p t).acq_ok = t.acq_ok := rfl
@[simp] theorem initSession_xfer_ok (a b c : Word) (p : Nat) (t : State) : (initSession a b c p t).xfer_ok = t.xfer_ok := rfl
@[simp] theorem initSession_rsp (a b c : Word) (p : Nat) (t : State) : (initSession a b c p t).rsp = t.rsp := rfl

end Sys2Proof.Machine
end

