-- ==== Sys2Proof/Laws/Receive.lean ====
section
/-! SUPPORT. What the receive engine's operations do: the frames of its sub-actions, each of their cases, and Drain. -/

namespace Sys2Proof.Machine

@[simp] theorem rxFires_eq_true (s : State) : rxFires s = true ↔ s.rx_armed = true ∧ s.rx_cnt = 1 := by
  simp [rxFires]

@[simp] theorem fall_eq_true (s : State) (rx : Bool) :
    fall s rx = true ↔ s.rx_prev_valid = true ∧ s.rx_prev = true ∧ rx = false := by
  simp [fall, and_assoc]

@[simp] theorem edgeTaken_eq_true (s : State) (rx : Bool) :
    edgeTaken s rx = true ↔ s.edge_en = true ∧ (fall s rx = true ∨ s.edge_pending = true) := by
  simp [edgeTaken]

@[simp] theorem edgeLatched_eq_true (s : State) (rx : Bool) :
    edgeLatched s rx = true ↔
      s.edge_en = false ∧ fall s rx = true ∧ s.params.EDGE_LATCH_WHILE_MASKED = true := by
  simp [edgeLatched, and_assoc]

/-- The newest sample is the top bit (R164). -/
theorem shiftIn_top (acc : Byte) (s : Bool) : (shiftIn acc s).getLsbD 7 = s := by
  cases s <;> revert acc <;> decide

/-- The other bits move down by one (R164). -/
theorem shiftIn_low (acc : Byte) (s : Bool) (j : Nat) (h : j < 7) :
    (shiftIn acc s).getLsbD j = acc.getLsbD (j + 1) := by
  unfold shiftIn
  rw [BitVec.getLsbD_or, BitVec.getLsbD_ushiftRight, BitVec.getLsbD_shiftLeft]
  simp [h, Nat.add_comm]

/-- What a receive sub-action leaves alone: everything but the receive registers. -/
structure RxFrame (u t : State) : Prop where
  params : t.params = u.params
  sess : t.sess = u.sess
  cfg_tx_pin : t.cfg_tx_pin = u.cfg_tx_pin
  cfg_rx_pin : t.cfg_rx_pin = u.cfg_rx_pin
  cfg_baud : t.cfg_baud = u.cfg_baud
  bit_period : t.bit_period = u.bit_period
  tx_busy : t.tx_busy = u.tx_busy
  tx_pos : t.tx_pos = u.tx_pos
  TXB : t.TXB = u.TXB
  tx_len : t.tx_len = u.tx_len
  tx_rd : t.tx_rd = u.tx_rd
  tx_shift : t.tx_shift = u.tx_shift
  tx_armed : t.tx_armed = u.tx_armed
  tx_cnt : t.tx_cnt = u.tx_cnt
  tx_out : t.tx_out = u.tx_out
  tx_oe : t.tx_oe = u.tx_oe
  sched_fault_seen : t.sched_fault_seen = u.sched_fault_seen
  input : t.input = u.input
  acq_ok : t.acq_ok = u.acq_ok
  xfer_ok : t.xfer_ok = u.xfer_ok
  rsp : t.rsp = u.rsp

theorem RxFrame.refl (u : State) : RxFrame u u := by constructor <;> rfl

theorem RxFrame.trans {u v t : State} (h : RxFrame u v) (k : RxFrame v t) : RxFrame u t := by
  constructor <;> first
    | exact k.params.trans h.params | exact k.sess.trans h.sess | exact k.cfg_tx_pin.trans h.cfg_tx_pin
    | exact k.cfg_rx_pin.trans h.cfg_rx_pin | exact k.cfg_baud.trans h.cfg_baud
    | exact k.bit_period.trans h.bit_period | exact k.tx_busy.trans h.tx_busy | exact k.tx_pos.trans h.tx_pos
    | exact k.TXB.trans h.TXB | exact k.tx_len.trans h.tx_len | exact k.tx_rd.trans h.tx_rd
    | exact k.tx_shift.trans h.tx_shift | exact k.tx_armed.trans h.tx_armed | exact k.tx_cnt.trans h.tx_cnt
    | exact k.tx_out.trans h.tx_out | exact k.tx_oe.trans h.tx_oe
    | exact k.sched_fault_seen.trans h.sched_fault_seen | exact k.input.trans h.input
    | exact k.acq_ok.trans h.acq_ok | exact k.xfer_ok.trans h.xfer_ok | exact k.rsp.trans h.rsp

/-- A receive timer step, by cases: not armed; counting down; one of the first seven samples; the eighth into a buffer
with room; the eighth into a full buffer. -/
theorem rxTimerStep_cases (pre : State) (x : Bool) (u : State) :
    (pre.rx_armed = false ∧ rxTimerStep pre x u = u) ∨
    (pre.rx_armed = true ∧ pre.rx_cnt ≠ 1 ∧ rxTimerStep pre x u = { u with rx_cnt := pre.rx_cnt - 1 }) ∨
    (pre.rx_armed = true ∧ pre.rx_cnt = 1 ∧ ∃ c : Fin 8, c.val = pre.rx_count.val + 1 ∧
      rxTimerStep pre x u =
        { u with rx_acc := shiftIn pre.rx_acc x, rx_count := c, rx_armed := true, rx_cnt := pre.bit_period }) ∨
    (pre.rx_armed = true ∧ pre.rx_cnt = 1 ∧ pre.rx_count.val = 7 ∧ pre.rx_len < pre.params.RX_CAP ∧
      rxTimerStep pre x u =
        { u with
          RXB := Memory.write pre.RXB pre.rx_len (shiftIn pre.rx_acc x), rx_len := pre.rx_len + 1
          rx_acc := 0, rx_count := 0, rx_armed := false, edge_en := true }) ∨
    (pre.rx_armed = true ∧ pre.rx_cnt = 1 ∧ pre.rx_count.val = 7 ∧ pre.params.RX_CAP ≤ pre.rx_len ∧
      rxTimerStep pre x u = { u with rx_acc := 0, rx_count := 0, rx_armed := false, edge_en := true }) := by
  unfold rxTimerStep
  by_cases hf : rxFires pre = true
  · rw [if_pos hf]
    obtain ⟨ha, hc⟩ := (rxFires_eq_true pre).mp hf
    unfold rxSample
    by_cases h7 : pre.rx_count.val + 1 < 8
    · exact .inr (.inr (.inl ⟨ha, hc, ⟨_, h7⟩, rfl, by rw [dif_pos h7]; rfl⟩))
    · rw [dif_neg h7]
      unfold rxCommit
      by_cases hr : pre.rx_len < pre.params.RX_CAP
      · exact .inr (.inr (.inr (.inl ⟨ha, hc, by omega, hr, by simp only [if_pos hr]; rfl⟩)))
      · exact .inr (.inr (.inr (.inr ⟨ha, hc, by omega, by omega, by simp only [if_neg hr]; rfl⟩)))
  · rw [if_neg hf]
    by_cases ha : pre.rx_armed = true
    · exact .inr (.inl ⟨ha, fun hc => hf ((rxFires_eq_true pre).mpr ⟨ha, hc⟩), if_pos ha⟩)
    · exact .inl ⟨by simpa using ha, if_neg ha⟩

theorem rxTimerStep_frame (pre : State) (x : Bool) (u : State) : RxFrame u (rxTimerStep pre x u) := by
  obtain ⟨-, h⟩ | ⟨-, -, h⟩ | ⟨-, -, c, -, h⟩ | ⟨-, -, -, -, h⟩ | ⟨-, -, -, -, h⟩ := rxTimerStep_cases pre x u <;>
    rw [h] <;> constructor <;> rfl

/-- The edge step, by cases: the edge event; a masked edge kept; nothing. -/
theorem edgeStep_cases (pre : State) (rx : Bool) (u : State) :
    (edgeTaken pre rx = true ∧
      edgeStep pre rx u =
        { u with
          edge_en := false, rx_acc := 0, rx_count := 0, edge_pending := false
          rx_armed := true, rx_cnt := pre.bit_period }) ∨
    (edgeTaken pre rx = false ∧ edgeLatched pre rx = true ∧ edgeStep pre rx u = { u with edge_pending := true }) ∨
    (edgeTaken pre rx = false ∧ edgeLatched pre rx = false ∧ edgeStep pre rx u = u) := by
  unfold edgeStep
  cases ht : edgeTaken pre rx with
  | true => exact .inl ⟨rfl, rfl⟩
  | false =>
    cases hl : edgeLatched pre rx with
    | true => exact .inr (.inl ⟨rfl, rfl, rfl⟩)
    | false => exact .inr (.inr ⟨rfl, rfl, rfl⟩)

theorem edgeStep_frame (pre : State) (rx : Bool) (u : State) : RxFrame u (edgeStep pre rx u) := by
  obtain ⟨-, h⟩ | ⟨-, -, h⟩ | ⟨-, -, h⟩ := edgeStep_cases pre rx u <;> rw [h] <;> constructor <;> rfl

theorem prevUpdate_frame (rx : Bool) (u : State) : RxFrame u (prevUpdate rx u) := by constructor <;> rfl

/-- What a successful drain gives: the k oldest bytes, the rest moved to the front, the vacated cells without contents,
the cells beyond the old length as they were. -/
theorem drain_ok {k : Nat} {s t : State} {data : List Byte} (hk : k ≤ s.rx_len) (h : drain k s = .ok (data, t)) :
    data.length = k ∧ (∀ i, i < k → data[i]? = Memory.read s.RXB i) ∧
    (∀ i, i < s.rx_len - k → Memory.read t.RXB i = Memory.read s.RXB (i + k)) ∧
    (∀ a, s.rx_len - k ≤ a → a < s.rx_len → Memory.read t.RXB a = none) ∧
    (∀ a, s.rx_len ≤ a → Memory.read t.RXB a = Memory.read s.RXB a) ∧
    t = { s with RXB := t.RXB, rx_len := s.rx_len - k } := by
  unfold drain at h
  split at h
  · cases h
  · rename_i d hd
    split at h
    · cases h
    · rename_i rest hrest
      cases h
      obtain ⟨hl, hr⟩ := loadCells_ok hd
      obtain ⟨hl', hr'⟩ := loadCells_ok hrest
      refine ⟨hl, fun i hi => by simpa using (hr i hi).2, fun i hi => ?_, fun a ha hb => ?_, fun a ha => ?_, rfl⟩
      · show Memory.read (eraseCells _ _ _) i = _
        rw [read_eraseCells, if_pos (Or.inl hi)]
        have := read_storeCells_inside rest s.RXB 0 i (by omega)
        rw [Nat.zero_add] at this
        rw [this, (hr' i hi).2, Nat.add_comm]
      · show Memory.read (eraseCells _ _ _) a = _
        rw [read_eraseCells, if_neg (by omega)]
      · show Memory.read (eraseCells _ _ _) a = _
        rw [read_eraseCells, if_pos (by omega), read_storeCells_outside _ _ _ _ (by omega)]

/-- A drain fails exactly where a cell below the valid length does not exist or has no specified contents. -/
theorem drain_error_iff {k : Nat} {s : State} (hk : k ≤ s.rx_len) :
    (∃ f, drain k s = .error f) ↔
      ∃ j, j < s.rx_len ∧ (s.params.RX_CAP ≤ j ∨ Memory.read s.RXB j = none) := by
  have h1 := loadCells_error_iff (cap := s.params.RX_CAP) (m := s.RXB) (start := 0) (n := k)
  have h2 := loadCells_error_iff (cap := s.params.RX_CAP) (m := s.RXB) (start := k) (n := s.rx_len - k)
  have split : (∃ f, drain k s = .error f) ↔
      (∃ f, loadCells s.params.RX_CAP s.RXB 0 k = .error f) ∨
      ∃ f, loadCells s.params.RX_CAP s.RXB k (s.rx_len - k) = .error f := by
    unfold drain
    cases loadCells s.params.RX_CAP s.RXB 0 k <;> cases loadCells s.params.RX_CAP s.RXB k (s.rx_len - k) <;> simp
  rw [split, h1, h2]
  constructor
  · rintro (⟨i, hi, h⟩ | ⟨i, hi, h⟩)
    · exact ⟨i, by omega, by simpa using h⟩
    · exact ⟨k + i, by omega, h⟩
  · rintro ⟨j, hj, h⟩
    by_cases hjk : j < k
    · exact .inl ⟨j, hjk, by simpa using h⟩
    · exact .inr ⟨j - k, by omega, by rw [show k + (j - k) = j by omega]; exact h⟩

theorem drain_wf {k : Nat} {s t : State} {data : List Byte} (hw : Memory.wf s.RXB) (h : drain k s = .ok (data, t)) :
    Memory.wf t.RXB := by
  unfold drain at h
  split at h
  · cases h
  · split at h
    · cases h
    · cases h
      exact eraseCells_wf (storeCells_wf hw _ _) _ _

/-- A drain succeeds where the cells below the valid length exist and have contents. -/
theorem drain_succeeds {k : Nat} {s : State} (hk : k ≤ s.rx_len)
    (h : ∀ i, i < s.rx_len → i < s.params.RX_CAP ∧ (Memory.read s.RXB i).isSome = true) :
    ∃ data t, drain k s = .ok (data, t) := by
  obtain ⟨d, hd⟩ := loadCells_succeeds (cap := s.params.RX_CAP) (m := s.RXB) (start := 0) (n := k)
    fun i hi => by simpa using h i (by omega)
  obtain ⟨r, hr⟩ := loadCells_succeeds (cap := s.params.RX_CAP) (m := s.RXB) (start := k) (n := s.rx_len - k)
    fun i hi => h (k + i) (by omega)
  exact ⟨d, _, by unfold drain; rw [hd, hr]⟩

end Sys2Proof.Machine
end

