-- ==== Sys2Proof/Laws/Transmit.lean ====
section
/-! SUPPORT. What the transmit engine's operations do: the frame of a timer step, each of its cases, and ENQUEUE. -/

namespace Sys2Proof.Machine

theorem nextTxPos_of_lt {k j : Fin 8} (h : j.val = k.val + 1) : nextTxPos k = .data j := by
  have hk : k.val + 1 < 8 := by omega
  have hj : j = ⟨k.val + 1, hk⟩ := Fin.ext h
  rw [nextTxPos, dif_pos hk, hj]

theorem nextTxPos_last {k : Fin 8} (h : k.val = 7) : nextTxPos k = .stop := by
  rw [nextTxPos, dif_neg (by omega)]

theorem nextTxPos_ne_start (k : Fin 8) : nextTxPos k ≠ .start := by
  unfold nextTxPos; split <;> simp

@[simp] theorem txFires_eq_true (s : State) : txFires s = true ↔ s.tx_armed = true ∧ s.tx_cnt = 1 := by
  simp [txFires]

/-- What a transmit timer step leaves alone: everything but the transmit registers, and TXB, tx_oe among these. -/
structure TxFrame (u t : State) : Prop where
  params : t.params = u.params
  sess : t.sess = u.sess
  cfg_tx_pin : t.cfg_tx_pin = u.cfg_tx_pin
  cfg_rx_pin : t.cfg_rx_pin = u.cfg_rx_pin
  cfg_baud : t.cfg_baud = u.cfg_baud
  bit_period : t.bit_period = u.bit_period
  TXB : t.TXB = u.TXB
  tx_oe : t.tx_oe = u.tx_oe
  RXB : t.RXB = u.RXB
  rx_len : t.rx_len = u.rx_len
  rx_acc : t.rx_acc = u.rx_acc
  rx_count : t.rx_count = u.rx_count
  edge_en : t.edge_en = u.edge_en
  rx_armed : t.rx_armed = u.rx_armed
  rx_cnt : t.rx_cnt = u.rx_cnt
  rx_prev : t.rx_prev = u.rx_prev
  rx_prev_valid : t.rx_prev_valid = u.rx_prev_valid
  edge_pending : t.edge_pending = u.edge_pending
  sched_fault_seen : t.sched_fault_seen = u.sched_fault_seen
  input : t.input = u.input
  acq_ok : t.acq_ok = u.acq_ok
  xfer_ok : t.xfer_ok = u.xfer_ok
  rsp : t.rsp = u.rsp

theorem TxFrame.refl (u : State) : TxFrame u u := by constructor <;> rfl

/-- A transmit timer step, by cases: not armed; counting down; the callback at Start, at Data k, at Stop with more bytes
queued, at Stop with none. -/
theorem txTimerStep_cases {pre u t : State} (h : txTimerStep pre u = .ok t) :
    (pre.tx_armed = false ∧ t = u) ∨
    (pre.tx_armed = true ∧ pre.tx_cnt ≠ 1 ∧ t = { u with tx_cnt := pre.tx_cnt - 1 }) ∨
    (pre.tx_armed = true ∧ pre.tx_cnt = 1 ∧ pre.tx_pos = .start ∧
      ∃ b, loadCell pre.params.TX_CAP pre.TXB pre.tx_rd = .ok b ∧
        t = { u with tx_out := false, tx_shift := b, tx_pos := .data 0, tx_armed := true, tx_cnt := pre.bit_period }) ∨
    (pre.tx_armed = true ∧ pre.tx_cnt = 1 ∧ ∃ k, pre.tx_pos = .data k ∧
      t = { u with
        tx_out := pre.tx_shift.getLsbD k.val, tx_pos := nextTxPos k, tx_armed := true, tx_cnt := pre.bit_period }) ∨
    (pre.tx_armed = true ∧ pre.tx_cnt = 1 ∧ pre.tx_pos = .stop ∧ pre.tx_rd + 1 < pre.tx_len ∧
      t = { u with
        tx_out := true, tx_pos := .start, tx_rd := pre.tx_rd + 1, tx_armed := true, tx_cnt := pre.bit_period }) ∨
    (pre.tx_armed = true ∧ pre.tx_cnt = 1 ∧ pre.tx_pos = .stop ∧ pre.tx_len ≤ pre.tx_rd + 1 ∧
      t = { u with
        tx_out := true, tx_pos := .start, tx_busy := false, tx_rd := 0, tx_len := 0, tx_armed := false }) := by
  unfold txTimerStep at h
  split at h
  · rename_i hf
    obtain ⟨ha, hc⟩ := (txFires_eq_true pre).mp hf
    unfold txCallback at h
    split at h
    · rename_i hp
      unfold txStartBit at h
      split at h
      · cases h
      · rename_i b hb
        cases h
        exact .inr (.inr (.inl ⟨ha, hc, hp, b, hb, rfl⟩))
    · rename_i k hp
      cases h
      exact .inr (.inr (.inr (.inl ⟨ha, hc, k, hp, rfl⟩)))
    · rename_i hp
      cases h
      unfold txStopBit
      by_cases hr : pre.tx_rd + 1 < pre.tx_len
      · exact .inr (.inr (.inr (.inr (.inl ⟨ha, hc, hp, hr, by simp only [if_pos hr]; rfl⟩))))
      · exact .inr (.inr (.inr (.inr (.inr ⟨ha, hc, hp, by omega, by simp only [if_neg hr]; rfl⟩))))
  · rename_i hf
    split at h
    · rename_i ha
      cases h
      exact .inr (.inl ⟨ha, fun hc => hf ((txFires_eq_true pre).mpr ⟨ha, hc⟩), rfl⟩)
    · rename_i ha
      cases h
      exact .inl ⟨by simpa using ha, rfl⟩

/-- A transmit timer step writes only transmit registers, and none of TXB and tx_oe (R113). -/
theorem txTimerStep_frame {pre u t : State} (h : txTimerStep pre u = .ok t) : TxFrame u t := by
  obtain ⟨-, rfl⟩ | ⟨-, -, rfl⟩ | ⟨-, -, -, b, -, rfl⟩ | ⟨-, -, k, -, rfl⟩ | ⟨-, -, -, -, rfl⟩ | ⟨-, -, -, -, rfl⟩ :=
    txTimerStep_cases h <;> constructor <;> rfl

/-- A transmit timer step can fail only at a Start callback whose cell does not exist or has no contents. -/
theorem txTimerStep_error_iff {pre u : State} :
    (∃ f, txTimerStep pre u = .error f) ↔
      txFires pre = true ∧ pre.tx_pos = .start ∧
        (pre.params.TX_CAP ≤ pre.tx_rd ∨ Memory.read pre.TXB pre.tx_rd = none) := by
  rw [← loadCell_error_iff]
  unfold txTimerStep
  by_cases hf : txFires pre = true
  · rw [if_pos hf]
    unfold txCallback
    cases hp : pre.tx_pos with
    | start =>
      simp only [txStartBit]
      cases hl : loadCell pre.params.TX_CAP pre.TXB pre.tx_rd with
      | error f => exact ⟨fun _ => ⟨hf, trivial, f, rfl⟩, fun _ => ⟨f, rfl⟩⟩
      | ok b => exact ⟨fun ⟨f, h⟩ => (nomatch h), fun ⟨_, _, f, h⟩ => nomatch h⟩
    | data k => exact ⟨fun ⟨f, h⟩ => (nomatch h), fun ⟨_, h, _⟩ => nomatch h⟩
    | stop => exact ⟨fun ⟨f, h⟩ => (nomatch h), fun ⟨_, h, _⟩ => nomatch h⟩
  · rw [if_neg hf]
    refine ⟨fun ⟨f, h⟩ => ?_, fun ⟨h, _⟩ => absurd h hf⟩
    split at h <;> cases h

/-- ENQUEUE, by cases (R130-R133). -/
theorem enqueue_cases (n : Half) (payload : List Byte) (s : State) :
    (n.toNat = 0 ∧ enqueue n payload s = (.ok, 0, s)) ∨
    (1 ≤ n.toNat ∧ s.params.TX_CAP < s.tx_len + n.toNat ∧ enqueue n payload s = (.bufferOverflow, 0, s)) ∨
    (1 ≤ n.toNat ∧ s.tx_len + n.toNat ≤ s.params.TX_CAP ∧ s.xfer_ok = false ∧
      enqueue n payload s = (.transferFault, 0, s)) ∨
    (1 ≤ n.toNat ∧ s.tx_len + n.toNat ≤ s.params.TX_CAP ∧ s.xfer_ok = true ∧
      enqueue n payload s = (.ok, n, txAppend payload s)) := by
  unfold enqueue writeCount
  by_cases h0 : n.toNat = 0
  · exact .inl ⟨h0, if_pos h0⟩
  · rw [if_neg h0]
    by_cases h1 : s.params.TX_CAP < s.tx_len + n.toNat
    · exact .inr (.inl ⟨by omega, h1, if_pos h1⟩)
    · rw [if_neg h1]
      cases hx : s.xfer_ok with
      | false => exact .inr (.inr (.inl ⟨by omega, by omega, rfl, rfl⟩))
      | true => exact .inr (.inr (.inr ⟨by omega, by omega, rfl, rfl⟩))

/-- The append of a WRITE to a running engine. -/
theorem txAppend_busy {s : State} (payload : List Byte) (h : s.tx_busy = true) :
    txAppend payload s =
      { s with TXB := storeCells s.TXB s.tx_len payload, tx_len := s.tx_len + payload.length } := by
  simp only [txAppend, if_pos h]

/-- The append of a WRITE to an idle engine, and START. -/
theorem txAppend_idle {s : State} (payload : List Byte) (h : s.tx_busy = false) :
    txAppend payload s =
      { s with
        TXB := storeCells s.TXB s.tx_len payload, tx_len := s.tx_len + payload.length
        tx_out := true, tx_pos := .start, tx_busy := true, tx_armed := true, tx_cnt := s.bit_period } := by
  simp only [txAppend, h]; rfl

end Sys2Proof.Machine
end

