-- ==== Sys2Proof/Laws/Exec.lean ====
section
/-! SUPPORT. For each step, everything it can do when it answers a next state, so that no proof unfolds a meaning. -/

namespace Sys2Proof.Machine

theorem schedFault_eq_true (s : State) (ftx frx : Bool) :
    schedFault s ftx frx = true ↔
      (ftx = true ∧ s.tx_armed = true) ∨ (frx = true ∧ s.rx_armed = true) := by
  simp [schedFault]

@[simp] theorem schedFault_quiet (s : State) : schedFault s false false = false := rfl

theorem outcomeOf_eq_next {r : Except Fault State} {t : State} : outcomeOf r = .next t ↔ r = .ok t := by
  cases r <;> simp [outcomeOf]

theorem outcomeOf_eq_fault {r : Except Fault State} {f : Fault} : outcomeOf r = .fault f ↔ r = .error f := by
  cases r <;> simp [outcomeOf]

/-- The composition of a tick: the transmit step may fail; the others cannot. -/
theorem tickEngines_eq_ok {rx : Bool} {s t : State} :
    tickEngines rx s = .ok t ↔
      ∃ u, txTimerStep s (noResponse s) = .ok u ∧ t = prevUpdate rx (edgeStep s rx (rxTimerStep s rx u)) := by
  unfold tickEngines
  cases h : txTimerStep s (noResponse s) with
  | error f => exact ⟨nofun, fun ⟨_, h, _⟩ => nomatch h⟩
  | ok u =>
    refine ⟨fun h' => ⟨u, rfl, by cases h'; rfl⟩, fun ⟨v, hv, ht⟩ => by cases hv; rw [ht]⟩

theorem tickEngines_eq_error {rx : Bool} {s : State} {f : Fault} :
    tickEngines rx s = .error f ↔ txTimerStep s (noResponse s) = .error f := by
  unfold tickEngines
  cases h : txTimerStep s (noResponse s) <;> simp

theorem exec_tick_of_not_configured {s : State} (h : s.sess ≠ .configured) (rx ftx frx : Bool) :
    exec (.tick rx ftx frx) s = .next (noResponse s) := by
  simp only [exec, execTick]
  split <;> first | rfl | exact absurd ‹_› h

theorem exec_tick_of_fault {s : State} (h : s.sess = .configured) {ftx frx : Bool}
    (hf : schedFault s ftx frx = true) (rx : Bool) :
    exec (.tick rx ftx frx) s = .next (faultEntry (noResponse s)) := by
  simp only [exec, execTick, h, if_pos hf]

theorem exec_tick_of_engines {s : State} (h : s.sess = .configured) {ftx frx : Bool}
    (hf : schedFault s ftx frx = false) (rx : Bool) :
    exec (.tick rx ftx frx) s = outcomeOf (tickEngines rx s) := by
  simp only [exec, execTick, h, hf]; rfl

/-- TICK, by cases: nothing; the fault entry; the engines. -/
theorem exec_tick_cases {rx ftx frx : Bool} {s t : State} (h : exec (.tick rx ftx frx) s = .next t) :
    (s.sess ≠ .configured ∧ t = noResponse s) ∨
    (s.sess = .configured ∧ schedFault s ftx frx = true ∧ t = faultEntry (noResponse s)) ∨
    (s.sess = .configured ∧ schedFault s ftx frx = false ∧
      ∃ u, txTimerStep s (noResponse s) = .ok u ∧ t = prevUpdate rx (edgeStep s rx (rxTimerStep s rx u))) := by
  by_cases hs : s.sess = .configured
  · cases hf : schedFault s ftx frx with
    | true =>
      rw [exec_tick_of_fault hs hf] at h
      exact .inr (.inl ⟨hs, rfl, by cases h; rfl⟩)
    | false =>
      rw [exec_tick_of_engines hs hf, outcomeOf_eq_next, tickEngines_eq_ok] at h
      exact .inr (.inr ⟨hs, rfl, h⟩)
  · rw [exec_tick_of_not_configured hs] at h
    exact .inl ⟨hs, by cases h; rfl⟩

theorem pinsValid_eq_true (a b : Word) : pinsValid a b = true ↔ 0 ≤ a.toInt ∧ 0 ≤ b.toInt ∧ a ≠ b := by
  unfold pinsValid
  rw [Bool.and_eq_true, Bool.and_eq_true, decide_eq_true_iff, decide_eq_true_iff, decide_eq_true_iff, and_assoc]
  rfl

/-- BitPeriod of a legal baud rate (R100). -/
theorem bitPeriod_of_legal {b : Int} (h1 : 1 ≤ b) (h2 : b ≤ 1000000) :
    bitPeriod b = .ticks (1000000 / b.toNat) := by
  have : 1 ≤ 1000000 / b.toNat := (Nat.le_div_iff_mul_le (by omega)).mpr (by omega)
  unfold bitPeriod Config.periodNum
  rw [if_neg (by omega), if_neg (by omega)]

theorem bitPeriod_eq_ticks {b : Int} {p : Nat} (h : bitPeriod b = .ticks p) :
    1 ≤ b ∧ b ≤ 1000000 ∧ p = 1000000 / b.toNat ∧ 1 ≤ p ∧ p ≤ 1000000 := by
  unfold bitPeriod Config.periodNum at h
  split at h
  · cases h
  · split at h
    · cases h
    · rename_i h1 h2
      cases h
      have hle : b.toNat ≤ 1000000 := Nat.le_of_not_lt fun hlt => h2 (Nat.div_eq_of_lt hlt)
      exact ⟨by omega, by omega, rfl, Nat.pos_of_ne_zero h2, Nat.div_le_self _ _⟩

/-- CONFIGURE, by cases: an error with the state as it was, or a new session. -/
theorem exec_configure_cases {w1 w2 w3 w4 w5 w6 w7 : Word} {s t : State}
    (h : exec (.configure w1 w2 w3 w4 w5 w6 w7) s = .next t) :
    s.sess = .unconfigured ∧
    (t = respond .invalidConfiguration 0 [] s ∨
     t = respond .resourceUnavailable 0 [] s ∨
     (s.acq_ok = true ∧ pinsValid w1 w2 = true ∧
      ∃ p, bitPeriod w3.toInt = .ticks p ∧ t = respond .ok 0 [] (initSession w1 w2 w3 p s))) := by
  simp only [exec, execConfigure] at h
  split at h
  · rename_i hs
    refine ⟨hs, ?_⟩
    unfold configureNew at h
    split at h
    · exact .inl (by cases h; rfl)
    · rename_i hp
      split at h
      · exact .inr (.inl (by cases h; rfl))
      · rename_i ha
        split at h
        · exact .inl (by cases h; rfl)
        · cases h
        · rename_i p hb
          exact .inr (.inr ⟨by simpa using ha, by simpa using hp, p, hb, by cases h; rfl⟩)
  · cases h
  · cases h

/-- WRITE, by cases: Faulted, or ENQUEUE. -/
theorem exec_write_cases {n : Half} {payload : List Byte} {s t : State}
    (h : exec (.write n payload) s = .next t) :
    payload.length = n.toNat ∧
    ((s.sess = .faulted ∧ t = respond .schedulingFault 0 [] s) ∨
     (s.sess = .configured ∧
       t = respond (enqueue n payload s).1 (enqueue n payload s).2.1 [] (enqueue n payload s).2.2)) := by
  simp only [exec, execWrite] at h
  split at h
  · cases h
  · rename_i hl
    refine ⟨Decidable.not_not.mp hl, ?_⟩
    split at h
    · cases h
    · exact .inl ⟨‹_›, by cases h; rfl⟩
    · exact .inr ⟨‹_›, by cases h; rfl⟩

/-- READ, by cases: Faulted, nothing to return, a failed copy-out, or the drain. -/
theorem exec_read_cases {max : Half} {s t : State} (h : exec (.read max) s = .next t) :
    (s.sess = .faulted ∧ t = respond .schedulingFault 0 [] s) ∨
    (s.sess = .configured ∧
      ((readCount max s.rx_len = 0 ∧ t = respond .ok 0 [] s) ∨
       (readCount max s.rx_len ≠ 0 ∧ s.xfer_ok = false ∧ t = respond .transferFault 0 [] s) ∨
       (readCount max s.rx_len ≠ 0 ∧ s.xfer_ok = true ∧
         ∃ data u, drain (readCount max s.rx_len) s = .ok (data, u) ∧
           t = respond .ok (countOf (readCount max s.rx_len)) data u))) := by
  simp only [exec, execRead] at h
  split at h
  · cases h
  · exact .inl ⟨‹_›, by cases h; rfl⟩
  · refine .inr ⟨‹_›, ?_⟩
    unfold readConfigured at h
    split at h
    · exact .inl ⟨‹_›, by cases h; rfl⟩
    · rename_i hk
      split at h
      · rename_i hx
        exact .inr (.inl ⟨hk, by simpa using hx, by cases h; rfl⟩)
      · rename_i hx
        split at h
        · cases h
        · rename_i data u hd
          exact .inr (.inr ⟨hk, by simpa using hx, data, u, hd, by cases h; rfl⟩)

/-- TEARDOWN, from each session state. -/
theorem exec_teardown_eq (s : State) :
    exec .teardown s =
      .next (respond .ok 0 [] (if s.sess = .unconfigured then s else endSession s)) := by
  simp only [exec, execTeardown]
  split <;> simp_all

/-! What TEARDOWN leaves is kept by the writers of the ports, which are no fields of the block's record (R51). -/

theorem discardSession_respond (st : Status) (c : Half) (d : List Byte) (s : State) :
    discardSession (respond st c d s) = respond st c d (discardSession s) := rfl

theorem discardSession_noResponse (s : State) : discardSession (noResponse s) = noResponse (discardSession s) := rfl

theorem discardSession_accept (s : State) (p : StepInput) (rest : List StepInput) :
    discardSession (s.accept p rest) = (discardSession s).accept p rest := rfl

theorem discardSession_idem (s : State) : discardSession (discardSession s) = discardSession s := rfl

theorem endSession_eq (s : State) : endSession s = discardSession s := rfl

theorem resetFields_respond {s : State} (h : ResetFields s) (st : Status) (c : Half) (d : List Byte) :
    ResetFields (respond st c d s) := by
  rw [ResetFields, discardSession_respond, h]

theorem resetFields_noResponse {s : State} (h : ResetFields s) : ResetFields (noResponse s) := by
  rw [ResetFields, discardSession_noResponse, h]

theorem resetFields_accept {s : State} (h : ResetFields s) (p : StepInput) (rest : List StepInput) :
    ResetFields (s.accept p rest) := by
  rw [ResetFields, discardSession_accept, h]

theorem resetFields_endSession (s : State) : ResetFields (endSession s) := by
  rw [ResetFields, endSession_eq, discardSession_idem]

/-- A step that answers a next state waited, or ran a decoded instruction. -/
theorem step_cases {s t : State} (h : step s = .next t) :
    (s.input = [] ∧ t = noResponse s) ∨
    ∃ p rest i, s.input = p :: rest ∧ decode p.word = .ok i ∧ exec i (s.accept p rest) = .next t := by
  unfold step fetch at h
  cases hi : s.input with
  | nil =>
    rw [hi] at h
    exact .inl ⟨rfl, by cases h; rfl⟩
  | cons p rest =>
    rw [hi] at h
    cases hd : decode p.word with
    | error e =>
      simp only [hd] at h
      cases h
    | ok i =>
      simp only [hd] at h
      exact .inr ⟨p, rest, i, rfl, hd, h⟩

/-- A step that faults ran a decoded instruction that did. -/
theorem step_fault_cases {s : State} {f : Fault} (h : step s = .fault f) :
    ∃ p rest i, s.input = p :: rest ∧ decode p.word = .ok i ∧ exec i (s.accept p rest) = .fault f := by
  unfold step fetch at h
  cases hi : s.input with
  | nil =>
    rw [hi] at h
    cases h
  | cons p rest =>
    rw [hi] at h
    cases hd : decode p.word with
    | error e =>
      simp only [hd] at h
      cases h
    | ok i =>
      simp only [hd] at h
      exact ⟨p, rest, i, rfl, hd, h⟩

theorem runInstrs_cons {i : Instr} {is : List Instr} {s t : State} (h : exec i s = .next t) :
    runInstrs (i :: is) s = runInstrs is t := by
  simp only [runInstrs, h]

theorem runInstrs_append (is js : List Instr) (s : State) :
    runInstrs (is ++ js) s =
      match runInstrs is s with
      | .next t => runInstrs js t
      | .fault f => .fault f
      | .refused r => .refused r := by
  induction is generalizing s with
  | nil => rfl
  | cons i is ih =>
    simp only [List.cons_append, runInstrs]
    cases exec i s with
    | next t => exact ih t
    | fault f => rfl
    | refused r => rfl

/-- One more tick at the end of a run of ticks. -/
theorem runTicks_concat {levels : List Bool} {rx : Bool} {s t : State} (h : runTicks levels s = .next t) :
    runTicks (levels ++ [rx]) s = exec (quietTick rx) t := by
  simp only [runTicks, List.map_append, List.map_cons, List.map_nil, runInstrs_append] at h ⊢
  rw [h]
  simp only [runInstrs]
  cases exec (quietTick rx) t <;> rfl

end Sys2Proof.Machine
end

