-- ==== Sys2Proof/Laws/PerInstr.lean ====
section
/-! SUPPORT. Statements made for each instruction. EncodedLength: a header fixes how many operand words and payload bytes
follow it (30_encoding.md R94). -/

namespace Sys2Proof.Laws.EncodedLength

/-- The operand words and payload bytes of a well-formed instruction are as many as its header says (R94). -/
def Statement (i : Instr) : Prop :=
  i.WellFormed →
    (encode i).operands.length = operandWords (encode i).header ∧
    (encode i).payload.length = payloadBytes (encode i).header

theorem tick (rx ftx frx : Bool) : Statement (.tick rx ftx frx) := by
  intro _; simp [encode, operandWords, payloadBytes]

theorem configure (txPin rxPin baud dataBits stopBits parity inverted : Word) :
    Statement (.configure txPin rxPin baud dataBits stopBits parity inverted) := by
  intro _; simp [encode, operandWords, payloadBytes]

theorem write (n : Half) (payload : List Byte) : Statement (.write n payload) := by
  intro h
  exact ⟨by simp [encode, operandWords], by simpa [encode, payloadBytes] using beq_iff_eq.mp h⟩

theorem read (max : Half) : Statement (.read max) := by
  intro _; simp [encode, operandWords, payloadBytes]

theorem teardown : Statement .teardown := by
  intro _; simp [encode, operandWords, payloadBytes]

end Sys2Proof.Laws.EncodedLength
end

