-- ==== Sys2Proof/Machine/Assembler.lean ====
section
/-! DEFINITION. The assembler notation of 30_encoding.md R95 and the pseudo-instructions of R96: a line of text, the
line it spells, the steps it stands for. It is notation for the host's side; the block never sees it. -/

namespace Sys2Proof.Machine

/-- A line: a step with the draw beside it (R95), or a pseudo-instruction (R96). -/
inductive AsmLine where
  | tick (rx ftx frx : Bool)
  | configure (tx rx baud data stop parity inv : Word) (acqOk : Bool)
  | write (bytes : List Byte) (xferOk : Bool)
  | read (max : Half) (xferOk : Bool)
  | teardown
  /-- `TICKS n, rx` -/
  | ticks (n : Nat) (rx : Bool)
  /-- `LOOP n` -/
  | loop (n : Nat)
deriving DecidableEq, Repr

/-- A token of a line. -/
inductive AsmToken where
  | word (cs : List Char)
  | int (v : Int)
  | text (cs : List Char)
  | comma
  | equals
  | openBrace
  | closeBrace
deriving DecidableEq, Repr

/-! Numbers: decimal, or hexadecimal after `0x`, with a minus sign where the field is signed. -/

/-- The value of a digit in a base of at most 16. -/
def digitValue (base : Nat) (c : Char) : Option Nat :=
  let n := c.toNat
  let v := if 48 ≤ n ∧ n ≤ 57 then n - 48 else if 65 ≤ n ∧ n ≤ 70 then n - 55 else if 97 ≤ n ∧ n ≤ 102 then n - 87 else 16
  if v < base then some v else none

/-- The digits after `acc`. -/
def digitsValue (base : Nat) : Nat → List Char → Option Nat
  | acc, [] => some acc
  | acc, c :: cs =>
    match digitValue base c with
    | some v => digitsValue base (acc * base + v) cs
    | none => none

/-- An unsigned numeral. -/
def naturalOf : List Char → Option Nat
  | [] => none
  | ['0', 'x'] => none
  | '0' :: 'x' :: cs => digitsValue 16 0 cs
  | cs => digitsValue 10 0 cs

/-- A numeral with or without a minus sign. -/
def integerOf : List Char → Option Int
  | '-' :: cs => (naturalOf cs).map (fun n => -(n : Int))
  | cs => (naturalOf cs).map (fun n => (n : Int))

/-! Tokens. -/

/-- The atom gathered so far (last character first), as a token before the others. -/
def flushAtom (atom : List Char) (rest : List AsmToken) : List AsmToken :=
  match atom with
  | [] => rest
  | _ :: _ =>
    match integerOf atom.reverse with
    | some v => .int v :: rest
    | none => .word atom.reverse :: rest

/-- The token of a punctuation character (123 and 125 are the two braces). -/
def punctuation (c : Char) : Option AsmToken :=
  if c = ',' then some .comma
  else if c = '=' then some .equals
  else if c.toNat = 123 then some .openBrace
  else if c.toNat = 125 then some .closeBrace
  else none

/-- The tokens of a line; `;` starts a comment. None where a quoted text does not end. -/
def tokens : (quoted : Bool) → (atom : List Char) → List Char → Option (List AsmToken)
  | true, _, [] => none
  | true, atom, c :: cs =>
    if c = '"' then (tokens false [] cs).map (fun ts => .text atom.reverse :: ts) else tokens true (c :: atom) cs
  | false, atom, [] => some (flushAtom atom [])
  | false, atom, c :: cs =>
    if c = ';' then some (flushAtom atom [])
    else if c = '"' then (tokens true [] cs).map (flushAtom atom)
    else if c.isWhitespace then (tokens false [] cs).map (flushAtom atom)
    else
      match punctuation c with
      | some p => (tokens false [] cs).map (fun ts => flushAtom atom (p :: ts))
      | none => tokens false (c :: atom) cs

/-! Operands. -/

/-- A comma-separated list of at least one integer. -/
def integers : List AsmToken → Option (List Int)
  | [.int v] => some [v]
  | .int v :: .comma :: ts => (integers ts).map (v :: ·)
  | _ => none

/-- A comma-separated list of at least one `key=integer`. -/
def keyed : List AsmToken → Option (List (List Char × Int))
  | [.word k, .equals, .int v] => some [(k, v)]
  | .word k :: .equals :: .int v :: .comma :: ts => (keyed ts).map ((k, v) :: ·)
  | _ => none

/-- The value of a key that must stand first, and the rest. -/
def requiredKey (k : List Char) : List (List Char × Int) → Option (Int × List (List Char × Int))
  | (k', v) :: rest => if k' = k then some (v, rest) else none
  | [] => none

/-- The value of a key that may stand first, or its default, and the rest. -/
def optionalKey (k : List Char) (default : Int) : List (List Char × Int) → Int × List (List Char × Int)
  | (k', v) :: rest => if k' = k then (v, rest) else (default, (k', v) :: rest)
  | [] => (default, [])

/-- A level or a fault bit. -/
def bitOf (v : Int) : Option Bool := if v = 0 then some false else if v = 1 then some true else none

/-- An unsigned value of `n` bits. -/
def unsignedOf (n : Nat) (v : Int) : Option (BitVec n) :=
  if 0 ≤ v ∧ v < 2 ^ n then some (BitVec.ofInt n v) else none

/-- An s32 value. -/
def s32Of (v : Int) : Option Word :=
  if -2 ^ 31 ≤ v ∧ v < 2 ^ 31 then some (BitVec.ofInt 32 v) else none

/-- The bytes of a list of integers. -/
def bytesOf : List Int → Option (List Byte)
  | [] => some []
  | v :: vs =>
    match unsignedOf 8 v, bytesOf vs with
    | some b, some bs => some (b :: bs)
    | _, _ => none

/-- One byte for each character, by ASCII (R96; PRESUMED by the spec's own mark G1, log entry 18). -/
def asciiOf (cs : List Char) : Option (List Byte) := bytesOf (cs.map (fun c => if c.toNat < 128 then (c.toNat : Int) else -1))

/-- The operands, and the draw written after them as `name=bit` in braces; 1 where it is omitted (R95). -/
def withDraw (name : List Char) (ts : List AsmToken) : Option (List AsmToken × Bool) :=
  match ts.span (· ≠ .openBrace) with
  | (args, []) => some (args, true)
  | (args, [.openBrace, .word k, .equals, .int v, .closeBrace]) =>
    if k = name then (bitOf v).map (fun b => (args, b)) else none
  | _ => none

/-- The name of a CONFIGURE's draw. -/
def acqName : List Char := ['a', 'c', 'q', '_', 'o', 'k']

/-- The name of a WRITE's or a READ's draw. -/
def xferName : List Char := ['x', 'f', 'e', 'r', '_', 'o', 'k']

/-! Lines. -/

/-- `TICK rx[, ftx[, frx]]`; omitted fault bits are 0. -/
def tickLine (ts : List AsmToken) : Option AsmLine :=
  match integers ts with
  | some [rx] => (bitOf rx).map (fun r => .tick r false false)
  | some [rx, ftx] =>
    match bitOf rx, bitOf ftx with
    | some r, some t => some (.tick r t false)
    | _, _ => none
  | some [rx, ftx, frx] =>
    match bitOf rx, bitOf ftx, bitOf frx with
    | some r, some t, some q => some (.tick r t q)
    | _, _, _ => none
  | _ => none

/-- The seven operands of a CONFIGURE as integers, in the notation's order; the reserved ones default to 8, 1, 0, 0. -/
def configureKeys (ks : List (List Char × Int)) : Option (List Int) :=
  match requiredKey ['t', 'x'] ks with
  | none => none
  | some (tx, ks) =>
    match requiredKey ['r', 'x'] ks with
    | none => none
    | some (rx, ks) =>
      match requiredKey ['b', 'a', 'u', 'd'] ks with
      | none => none
      | some (baud, ks) =>
        let (data, ks) := optionalKey ['d', 'a', 't', 'a'] 8 ks
        let (stop, ks) := optionalKey ['s', 't', 'o', 'p'] 1 ks
        let (parity, ks) := optionalKey ['p', 'a', 'r', 'i', 't', 'y'] 0 ks
        let (inv, ks) := optionalKey ['i', 'n', 'v'] 0 ks
        if ks = [] then some [tx, rx, baud, data, stop, parity, inv] else none

/-- The words of those operands: six s32 and one u32 (R85). -/
def configureWords (acqOk : Bool) : List Int → Option AsmLine
  | [tx, rx, baud, data, stop, parity, inv] =>
    match s32Of tx, s32Of rx, s32Of baud, s32Of data, s32Of stop, s32Of parity, unsignedOf 32 inv with
    | some w1, some w2, some w3, some w4, some w5, some w6, some w7 => some (.configure w1 w2 w3 w4 w5 w6 w7 acqOk)
    | _, _, _, _, _, _, _ => none
  | _ => none

/-- `CONFIGURE tx=, rx=, baud=[, data=][, stop=][, parity=][, inv=]` and its draw. -/
def configureLine (ts : List AsmToken) : Option AsmLine :=
  match withDraw acqName ts with
  | some (args, acqOk) =>
    match keyed args with
    | some ks => (configureKeys ks).bind (configureWords acqOk)
    | none => none
  | none => none

/-- The WRITE of these bytes. More than 65535 have no u16 N (R86); R95 is silent on such a line, and here it spells nothing
(DESIGN CHOICE, log entry 18). -/
def writeOf (bytes : List Byte) (xferOk : Bool) : Option AsmLine :=
  if bytes.length < 2 ^ 16 then some (.write bytes xferOk) else none

/-- `WRITE`, `WRITE byte[, byte]...`, `WRITE "text"` and its draw. -/
def writeLine (ts : List AsmToken) : Option AsmLine :=
  match withDraw xferName ts with
  | some ([], xferOk) => some (.write [] xferOk)
  | some ([.text cs], xferOk) => (asciiOf cs).bind (fun bs => writeOf bs xferOk)
  | some (args, xferOk) => ((integers args).bind bytesOf).bind (fun bs => writeOf bs xferOk)
  | none => none

/-- `READ max` and its draw. -/
def readLine (ts : List AsmToken) : Option AsmLine :=
  match withDraw xferName ts with
  | some ([.int v], xferOk) => (unsignedOf 16 v).map (fun m => .read m xferOk)
  | _ => none

/-- `TICKS n, rx` (R96). -/
def ticksLine (ts : List AsmToken) : Option AsmLine :=
  match integers ts with
  | some [n, rx] => if 0 ≤ n then (bitOf rx).map (fun r => .ticks n.toNat r) else none
  | _ => none

/-- `LOOP n` (R96). -/
def loopLine (ts : List AsmToken) : Option AsmLine :=
  match ts with
  | [.int n] => if 0 ≤ n then some (.loop n.toNat) else none
  | _ => none

/-- The line a text spells: `some none` for a blank or comment line, `none` for a text that spells nothing. -/
def assembleLine (cs : List Char) : Option (Option AsmLine) :=
  match tokens false [] cs with
  | none => none
  | some [] => some none
  | some (.word ['T', 'I', 'C', 'K'] :: ts) => (tickLine ts).map some
  | some (.word ['C', 'O', 'N', 'F', 'I', 'G', 'U', 'R', 'E'] :: ts) => (configureLine ts).map some
  | some (.word ['W', 'R', 'I', 'T', 'E'] :: ts) => (writeLine ts).map some
  | some (.word ['R', 'E', 'A', 'D'] :: ts) => (readLine ts).map some
  | some [.word ['T', 'E', 'A', 'R', 'D', 'O', 'W', 'N']] => some (some .teardown)
  | some (.word ['T', 'I', 'C', 'K', 'S'] :: ts) => (ticksLine ts).map some
  | some (.word ['L', 'O', 'O', 'P'] :: ts) => (loopLine ts).map some
  | some _ => none

/-! The steps a line stands for. -/

/-- A step with both draws given. -/
def inputOf (i : Instr) (acqOk xferOk : Bool) : StepInput := { word := encode i, acqOk := acqOk, xferOk := xferOk }

/-- The step words of a line before the block sees it (R95, R96). LOOP depends on the pin as it runs, so it has none.
A WRITE of more than 65535 bytes, which no text spells, has N modulo 2^16 here, so the step is refused as malformed
(DESIGN CHOICE, log entry 18). -/
def expandLine : AsmLine → List StepInput
  | .tick rx ftx frx => [inputOf (.tick rx ftx frx) true true]
  | .configure w1 w2 w3 w4 w5 w6 w7 acqOk => [inputOf (.configure w1 w2 w3 w4 w5 w6 w7) acqOk true]
  | .write bytes xferOk => [inputOf (.write (BitVec.ofNat 16 bytes.length) bytes) true xferOk]
  | .read max xferOk => [inputOf (.read max) true xferOk]
  | .teardown => [inputOf .teardown true true]
  | .ticks n rx => List.replicate n (inputOf (quietTick rx) true true)
  | .loop _ => []

/-- Running a line: its steps, or the harness's loop (R96). -/
def runLine (l : AsmLine) (s : State) : Result :=
  match l with
  | .loop n => runLoop n s
  | l => runInputs (expandLine l) s

/-- Running a listing, one line after another. -/
def runLines : List AsmLine → State → Result
  | [], s => .next s
  | l :: ls, s =>
    match runLine l s with
    | .next t => runLines ls t
    | .fault f => .fault f
    | .refused r => .refused r

end Sys2Proof.Machine
end

