-- ==== Sys2Proof/Tests/Slice0.lean ====
section
/-! SUPPORT. Tests and witnesses. The expected values are those of 95_test_vectors.md (named in each docstring) or are
written out from the encoding tables of 30_encoding.md. A witness shows a state and operands that meet the hypotheses of the
statement it is named after. -/

namespace Sys2Proof.Machine.Tests

/-! ## Well-formedness and decoding -/

/-- R92: a WRITE of two bytes with one byte of payload is ill-formed, and with two it is well-formed. -/
theorem test_wellFormed_write_needs_its_payload :
    ¬ (Instr.write 2 [0x41]).WellFormed ∧ (Instr.write 2 [0x41, 0x42]).WellFormed := by decide

/-- R92: exec refuses the ill-formed WRITE. -/
theorem test_illFormed_write_refused :
    exec (.write 2 [0x41]) State.reset = .refused .malformedCommand := by rfl

/-- R84: OP 0000, reserved 0 (25 bits), FRX 1, FTX 0, RX 1. -/
theorem test_decode_tick :
    decode ⟨0b0000_0000000000000000000000000_1_0_1#32, [], []⟩ = .ok (.tick true false true) := rfl

/-- R85: OP 0001, ARG 0; W1..W7 in order, W3 = -9600 in two's complement (V-BT1). -/
theorem test_decode_configure :
    decode ⟨0b0001_0000000000000000000000000000#32, [1, 2, 0xFFFFDA80, 4, 5, 6, 7], []⟩ =
      .ok (.configure 1 2 (-9600) 4 5 6 7) := rfl

/-- R86: OP 0010, reserved 0 (12 bits), N = 3. -/
theorem test_decode_write :
    decode ⟨0b0010_000000000000_0000000000000011#32, [], [9, 8, 7]⟩ = .ok (.write 3 [9, 8, 7]) := rfl

/-- R87: OP 0011, reserved 0 (12 bits), MAX = 0x8001. -/
theorem test_decode_read :
    decode ⟨0b0011_000000000000_1000000000000001#32, [], []⟩ = .ok (.read 0x8001) := rfl

/-- R88: OP 0100, ARG 0. -/
theorem test_decode_teardown :
    decode ⟨0b0100_0000000000000000000000000000#32, [], []⟩ = .ok .teardown := rfl

/-- V-E1, the rows refused as reserved. -/
theorem test_decode_reserved :
    decode ⟨0x00000008, [], []⟩ = .error .reserved ∧
    decode ⟨0x10000001, [1, 2, 3, 4, 5, 6, 7], []⟩ = .error .reserved ∧
    decode ⟨0x20010000, [], []⟩ = .error .reserved ∧
    decode ⟨0x40000001, [], []⟩ = .error .reserved ∧
    decode ⟨0x50000000, [], []⟩ = .error .reserved ∧
    decode ⟨0xF0000000, [1], [2]⟩ = .error .reserved := ⟨rfl, rfl, rfl, rfl, rfl, rfl⟩

/-- V-E1, the rows refused as malformed. -/
theorem test_decode_malformed :
    decode ⟨0x10000000, [1, 2, 3, 4, 5, 6], []⟩ = .error .malformed ∧
    decode ⟨0x20000002, [], [0x41]⟩ = .error .malformed ∧
    decode ⟨0x30000010, [1], []⟩ = .error .malformed := ⟨rfl, rfl, rfl⟩

/-- V-E2: both worked byte strings. -/
theorem test_serialize :
    serialize (encode (.write 2 [0x41, 0x42])) = [0x02, 0x00, 0x00, 0x20, 0x41, 0x42] ∧
    serialize (encode (.configure 17 27 9600 8 1 0 0)) =
      [0x00, 0x00, 0x00, 0x10, 0x11, 0x00, 0x00, 0x00, 0x1B, 0x00, 0x00, 0x00, 0x80, 0x25, 0x00, 0x00,
       0x08, 0x00, 0x00, 0x00, 0x01, 0x00, 0x00, 0x00, 0x00, 0x00, 0x00, 0x00, 0x00, 0x00, 0x00, 0x00] := by decide

/-- The table's numbering of bits: header first, then the operand words, then the payload bytes (R97). -/
theorem test_decodeTableWord :
    decodeTableWord 32 0x00000003 = some (.tick true true false) ∧
    decodeTableWord 32 0x10000000 = some (.configure 0 0 0 0 0 0 0) ∧
    decodeTableWord 128 0x000025800000001B0000001110000000 = some (.configure 17 27 9600 0 0 0 0) ∧
    decodeTableWord 48 0x424120000002 = some (.write 2 [0x41, 0x42]) ∧
    decodeTableWord 32 0x3000FFFF = some (.read 65535) ∧
    decodeTableWord 32 0x40000000 = some .teardown ∧
    decodeTableWord 32 0x50000000 = none := by decide

/-- V-S3: from reset, READ 1 is refused; TEARDOWN is no-op (V-S4). -/
theorem test_withFetchWord :
    step (State.reset.withFetchWord 32 0x30000001) = .refused .notConfigured ∧
    step (State.reset.withFetchWord 32 0x40000000) =
      .next { State.reset with rsp := some ⟨.ok, 0, []⟩ } := ⟨rfl, rfl⟩

/-! ## Assembler notation (R95, R96) -/

/-- W1's line as P1 writes it. -/
theorem test_assemble_configure :
    assembleLine "CONFIGURE tx=17, rx=27, baud=0x2580 ; a comment".toList =
      some (some (.configure 17 27 9600 8 1 0 0 true)) := by decide

/-- V-TX2's line with a failed copy-in (123 and 125 are the braces). -/
theorem test_assemble_write_with_draw :
    assembleLine ("WRITE 0x41, 66 ".toList ++ [Char.ofNat 123] ++ "xfer_ok=0".toList ++ [Char.ofNat 125]) =
      some (some (.write [0x41, 0x42] false)) := by decide

/-- A quoted text is its ASCII bytes; TICKS expands to that many TICK words. -/
theorem test_assemble_text_and_ticks :
    assembleLine ("WRITE ".toList ++ ['"', 'A', 'B', '"']) = some (some (.write [0x41, 0x42] true)) ∧
    expandLine (.ticks 2 true) =
      [⟨⟨0x00000001, [], []⟩, true, true⟩, ⟨⟨0x00000001, [], []⟩, true, true⟩] := by decide

/-- A WRITE of 65535 bytes is spelled, and one of 65536 has no N (R86, log entry 18). -/
theorem test_assemble_longest_write :
    writeOf (List.replicate 65535 0) true = some (.write (List.replicate 65535 0) true) ∧
    writeOf (List.replicate 65536 0) true = none := by
  constructor
  · rw [writeOf, if_pos (by rw [List.length_replicate]; decide)]
  · rw [writeOf, if_neg (by rw [List.length_replicate]; decide)]

/-! ## States -/

/-- A Configured session with P = 3, four cells to send from and two to receive into. -/
def idle (latch : Bool) : State :=
  { State.resetWith ⟨4, 2, latch⟩ with
    sess := .configured
    cfg_tx_pin := 17
    cfg_rx_pin := 27
    cfg_baud := 333333
    bit_period := 3
    tx_oe := true
    edge_en := true
    rx_prev_valid := true }

/-- A run of two bytes in progress, 0x41 in the working register. -/
def sending (pos : TxPos) (cnt : Nat) : State :=
  { idle false with
    tx_busy := true
    tx_armed := true
    tx_pos := pos
    tx_cnt := cnt
    tx_shift := 0x41
    TXB := [(0, 0x41), (1, 0x42)]
    tx_len := 2 }

/-- A byte being received, `count` samples so far. -/
def receiving (latch : Bool) (count : Fin 8) (cnt : Nat) : State :=
  { idle latch with edge_en := false, rx_armed := true, rx_count := count, rx_cnt := cnt }

/-- The first `n` of two received bytes. -/
def received (n : Nat) (s : State) : State :=
  { s with RXB := [(0, 0x61), (1, 0x62)].take n, rx_len := n }

/-- A session that met a scheduling fault while it sent. -/
def faulted : State :=
  { sending .start 2 with sess := .faulted, tx_armed := false, edge_en := false, sched_fault_seen := true }

/-! ## The invariant of those states -/

/-- The parts of `SessionInv` and `BuffersInv` as one decidable check. -/
abbrev SessionCheck (s : State) : Prop :=
  (pinsValid s.cfg_tx_pin s.cfg_rx_pin = true ∧ 1 ≤ signed s.cfg_baud ∧ signed s.cfg_baud ≤ 1000000 ∧
    s.bit_period = Config.periodNum / (signed s.cfg_baud).toNat ∧ 1 ≤ s.bit_period ∧ s.bit_period ≤ 1000000 ∧
    s.tx_oe = true ∧ (s.edge_pending = true → s.params.EDGE_LATCH_WHILE_MASKED = true)) ∧
  (s.tx_rd ≤ s.tx_len ∧ s.tx_len ≤ s.params.TX_CAP ∧ s.rx_len ≤ s.params.RX_CAP ∧
    (∀ j, j < 8 - s.rx_count.val → s.rx_acc.getLsbD j = false) ∧
    (∀ i, i < s.tx_len → (Memory.read s.TXB i).isSome = true) ∧
    (∀ i, i < s.rx_len → (Memory.read s.RXB i).isSome = true)) ∧
  (s.params.Legal ∧ Memory.wf s.TXB ∧ Memory.wf s.RXB ∧
    (∀ c ∈ s.TXB, c.1 < s.params.TX_CAP) ∧ (∀ c ∈ s.RXB, c.1 < s.params.RX_CAP))

/-- The parts of `EnginesInv` as one decidable check. -/
abbrev EnginesCheck (s : State) : Prop :=
  s.tx_busy = s.tx_armed ∧ (s.tx_busy = false → s.tx_len = 0 ∧ s.tx_rd = 0 ∧ s.tx_pos = .start) ∧
  (s.tx_busy = true → s.tx_rd < s.tx_len) ∧ (s.tx_armed = true → 1 ≤ s.tx_cnt ∧ s.tx_cnt ≤ s.bit_period) ∧
  (s.edge_en = !s.rx_armed) ∧ (s.rx_armed = false → s.rx_count = 0 ∧ s.rx_acc = 0) ∧
  (s.rx_armed = true → 1 ≤ s.rx_cnt ∧ s.rx_cnt ≤ s.bit_period)

theorem listed_of_read {m : Memory} {i : Nat} (h : (Memory.read m i).isSome = true) : ∃ c ∈ m, c.1 = i := by
  induction m with
  | nil => cases h
  | cons c m ih =>
    rw [read_cons] at h
    split at h
    · exact ⟨c, .head _, ‹_›⟩
    · obtain ⟨d, hd, e⟩ := ih h
      exact ⟨d, .tail _ hd, e⟩

theorem below_of_keys {m : Memory} {cap : Nat} (h : ∀ c ∈ m, c.1 < cap) (i : Nat)
    (hi : (Memory.read m i).isSome = true) : i < cap := by
  obtain ⟨c, hc, rfl⟩ := listed_of_read hi
  exact h c hc

theorem sessionInv_of_check {s : State} (h : SessionCheck s) : BuffersInv s ∧ SessionInv s := by
  obtain ⟨⟨a1, a2, a3, a4, a5, a6, a7, a8⟩, ⟨b1, b2, b3, b4, b5, b6⟩, ⟨c1, c2, c3, c4, c5⟩⟩ := h
  exact ⟨⟨c1, c2, c3, below_of_keys c4, below_of_keys c5⟩, ⟨a1, a2, a3, a4, a5, a6, a7, a8, b1, b2, b3, b4, b5, b6⟩⟩

theorem blockInv_of_checks {s : State} (h : s.sess = .configured) (hs : SessionCheck s) (he : EnginesCheck s) :
    BlockInv s := by
  obtain ⟨e1, e2, e3, e4, e5, e6, e7⟩ := he
  refine ⟨(sessionInv_of_check hs).1, ?_⟩
  rw [BySession, h]
  exact ⟨(sessionInv_of_check hs).2, ⟨e1, e2, e3, e4, e5, e6, e7⟩⟩

theorem witness_inv_idle : BlockInv (idle false) ∧ BlockInv (idle true) :=
  ⟨blockInv_of_checks rfl (by decide) (by decide), blockInv_of_checks rfl (by decide) (by decide)⟩

theorem witness_inv_faulted : BlockInv faulted :=
  ⟨(sessionInv_of_check (by decide)).1, (sessionInv_of_check (by decide)).2, ⟨rfl, rfl, rfl⟩⟩

/-! ## One step of each instruction -/

/-- V-RX1, sample 8 of 0x41: the byte is committed. -/
theorem test_tick_commits :
    exec (.tick false false false) { receiving false 7 1 with rx_acc := 0x82 } =
      .next { receiving false 0 1 with RXB := [(0, 0x41)], rx_len := 1, rx_armed := false, edge_en := true, rx_prev := false } :=
  rfl

/-- V-TX1, byte 0x41: data bit 6 is 1; V-BT2: the timer is armed with P again. -/
theorem test_tick_data_bit :
    exec (.tick true false false) { sending (.data 6) 1 with tx_out := false } = .next (sending (.data 7) 3) := rfl

/-- V-S1, first row; TXB, RXB and sched_fault_seen stand. -/
theorem test_configure_ok :
    exec (.configure 17 27 333333 7 2 1 1) { State.resetWith ⟨4, 2, false⟩ with sched_fault_seen := true } =
      .next { idle false with rx_prev_valid := false, sched_fault_seen := true, rsp := some ⟨.ok, 0, []⟩ } := rfl

/-- V-S1: acquisition is answered before the baud rate is looked at. -/
theorem test_configure_acquisition_first :
    exec (.configure 17 27 0 8 1 0 0) { State.reset with acq_ok := false } =
      .next { State.reset with acq_ok := false, rsp := some ⟨.resourceUnavailable, 0, []⟩ } := rfl

/-- V-TX2: a WRITE while busy is appended and starts nothing. -/
theorem test_write_while_busy :
    exec (.write 1 [0x43]) (sending .stop 2) =
      .next { sending .stop 2 with TXB := [(0, 0x41), (1, 0x42), (2, 0x43)], tx_len := 3, rsp := some ⟨.ok, 1, []⟩ } := rfl

/-- V-TX2: capacity is checked before the copy-in. -/
theorem test_write_capacity_first :
    exec (.write 5 [1, 2, 3, 4, 5]) { idle false with xfer_ok := false } =
      .next { idle false with xfer_ok := false, rsp := some ⟨.bufferOverflow, 0, []⟩ } := rfl

/-- V-S2: READ of fewer bytes than there are. -/
theorem test_read_one_of_two :
    exec (.read 1) (received 2 (idle false)) =
      .next { idle false with RXB := [(0, 0x62)], rx_len := 1, rsp := some ⟨.ok, 1, [0x61]⟩ } := rfl

/-- V-S2: READ 65535. -/
theorem test_read_all :
    exec (.read 65535) (received 2 (idle false)) =
      .next { idle false with rsp := some ⟨.ok, 2, [0x61, 0x62]⟩ } := rfl

/-- V-S4, from Faulted: sched_fault_seen and the cells of TXB stand, all else is as after reset. -/
theorem test_teardown_faulted :
    exec .teardown faulted =
      .next { State.resetWith ⟨4, 2, false⟩ with
        TXB := [(0, 0x41), (1, 0x42)], sched_fault_seen := true, rsp := some ⟨.ok, 0, []⟩ } := rfl

/-! ## Witnesses: encoding and the step -/

/-- DecodeOfEncodedInstr, SerializedStepParsesBack. -/
theorem witness_wellFormed :
    (Instr.write 0 []).WellFormed ∧ (Instr.write 2 [0x41, 0x42]).WellFormed ∧ (Instr.read 0xFFFF).WellFormed := by decide

/-- DecodedWordIsItsEncoding. -/
theorem witness_decodes :
    decode ⟨0x20000000, [], []⟩ = .ok (.write 0 []) ∧ decode ⟨0x3000FFFF, [], []⟩ = .ok (.read 0xFFFF) := ⟨rfl, rfl⟩

/-- A step with both draws 0 in front of the input. -/
def given (w : StepWord) (s : State) : State := { s with input := [⟨w, false, false⟩] }

/-- StepRunsTheDecodedInstr (all three answers of the decoder, and no input), ReservedEncodingsAreRefused,
MalformedCommandsAreRefused. -/
theorem witness_step_inputs :
    ((given ⟨0x40000000, [], []⟩ State.reset).input = [⟨⟨0x40000000, [], []⟩, false, false⟩] ∧
      decode ⟨0x40000000, [], []⟩ = .ok .teardown) ∧
    ((given ⟨0x50000000, [], []⟩ State.reset).input = [⟨⟨0x50000000, [], []⟩, false, false⟩] ∧
      decode ⟨0x50000000, [], []⟩ = .error .reserved) ∧
    ((given ⟨0x20000001, [], []⟩ State.reset).input = [⟨⟨0x20000001, [], []⟩, false, false⟩] ∧
      decode ⟨0x20000001, [], []⟩ = .error .malformed) ∧
    State.reset.input = [] ∧ ([] : List Byte).length ≠ (1 : Half).toNat :=
  ⟨⟨rfl, rfl⟩, ⟨rfl, rfl⟩, ⟨rfl, rfl⟩, rfl, by decide⟩

/-- FetchedTableWordRuns. -/
theorem witness_fetched : decodeTableWord 48 0x424120000002 = some (.write 2 [0x41, 0x42]) := by decide

/-- ResetMeetsTheInvariant: the least and the greatest legal capacities. -/
theorem witness_legal_params :
    (⟨1, 65535, true⟩ : Config.Params).Legal ∧ (⟨65535, 1, false⟩ : Config.Params).Legal := by decide

/-! ## Witnesses: bit timing and CONFIGURE -/

/-- BitPeriodTruncates, LineRateIsAtLeastBaud (V-BT1). -/
theorem witness_bitPeriod :
    bitPeriod 0 = .invalid ∧ bitPeriod 1 = .ticks 1000000 ∧ bitPeriod 9600 = .ticks 104 ∧
    bitPeriod 1000000 = .ticks 1 ∧ bitPeriod 1000001 = .zero := by decide

/-- ConfigureChecksInOrder: each clause, at the ends of its range. -/
theorem witness_configure_checks :
    faulted.sess ≠ .unconfigured ∧ State.reset.sess = .unconfigured ∧ State.reset.acq_ok = true ∧
    (0x80000000 : Word).toInt < 0 ∧ (0xFFFFFFFF : Word).toInt < 0 ∧ 0 ≤ (0 : Word).toInt ∧
    0 ≤ (0x7FFFFFFF : Word).toInt ∧ (0 : Word) ≠ 0x7FFFFFFF ∧
    (0 : Word).toInt ≤ 0 ∧ (0x80000000 : Word).toInt ≤ 0 ∧
    1000000 < (1000001 : Word).toInt ∧ 1000000 < (0x7FFFFFFF : Word).toInt ∧
    0 < (1 : Word).toInt ∧ (1000000 : Word).toInt ≤ 1000000 ∧
    ({ State.reset with acq_ok := false }).acq_ok = false := by decide

/-- ConfigureStartsASession: the slowest and the fastest legal rate. -/
theorem witness_configure_starts :
    State.reset.sess = .unconfigured ∧ State.reset.acq_ok = true ∧ 0 ≤ (0 : Word).toInt ∧ 0 ≤ (1 : Word).toInt ∧
    (0 : Word) ≠ 1 ∧ (1 ≤ (1 : Word).toInt ∧ (1 : Word).toInt ≤ 1000000) ∧
    (1 ≤ (1000000 : Word).toInt ∧ (1000000 : Word).toInt ≤ 1000000) := by decide

/-- ConfigureFrame: with status OK, and with another status. -/
theorem witness_configure_frame :
    (∃ t, exec (.configure 17 27 333333 8 1 0 0) State.reset = .next t ∧ t.rsp = some ⟨.ok, 0, []⟩) ∧
    (∃ t, exec (.configure 17 17 333333 8 1 0 0) State.reset = .next t ∧ t.rsp ≠ some ⟨.ok, 0, []⟩) :=
  ⟨⟨_, rfl, rfl⟩, ⟨_, rfl, by decide⟩⟩

/-! ## Witnesses: WRITE, READ, TEARDOWN -/

/-- WriteAppendsAndStartsWhenIdle: a WRITE of exactly the room there is, on an idle and on a busy engine. -/
theorem witness_write_appends :
    ((idle false).sess = .configured ∧ (idle false).xfer_ok = true ∧ [1, 2, 3, (4 : Byte)].length = (4 : Half).toNat ∧
      (idle false).tx_len + (4 : Half).toNat ≤ (idle false).params.TX_CAP ∧ (idle false).tx_busy = false) ∧
    ((sending .stop 1).sess = .configured ∧ (sending .stop 1).xfer_ok = true ∧ [1, (2 : Byte)].length = (2 : Half).toNat ∧
      (sending .stop 1).tx_len + (2 : Half).toNat ≤ (sending .stop 1).params.TX_CAP ∧
      (sending .stop 1).tx_busy = true) := by decide

/-- WriteRejectedWhole: empty, one byte too many, and a failed copy-in. -/
theorem witness_write_rejected :
    (idle false).sess = .configured ∧ ([] : List Byte).length = (0 : Half).toNat ∧
    [1, 2, 3, 4, (5 : Byte)].length = (5 : Half).toNat ∧
    (idle false).params.TX_CAP < (idle false).tx_len + (5 : Half).toNat ∧
    ({ idle false with xfer_ok := false }).xfer_ok = false ∧
    (idle false).tx_len + (1 : Half).toNat ≤ (idle false).params.TX_CAP := by decide

/-- WriteFrame, WriteCountIsAllOrNone: accepted on an idle and on a busy engine, and rejected. -/
theorem witness_write_frame :
    (∃ t, exec (.write 1 [0x41]) (idle false) = .next t ∧ t.rsp = some ⟨.ok, 1, []⟩) ∧
    (∃ t, exec (.write 1 [0x41]) (sending .start 1) = .next t ∧ t.rsp = some ⟨.ok, 1, []⟩) ∧
    (∃ t, exec (.write 3 [1, 2, 3]) (sending .start 1) = .next t ∧ t.rsp = some ⟨.bufferOverflow, 0, []⟩) :=
  ⟨⟨_, rfl, rfl⟩, ⟨_, rfl, rfl⟩, ⟨_, rfl, rfl⟩⟩

/-- ReadReturnsTheOldestBytes: one byte of a full buffer, and all of them. -/
theorem witness_read_returns :
    (received 2 (idle false)).sess = .configured ∧ (received 2 (idle false)).xfer_ok = true ∧
    1 ≤ min (1 : Half).toNat (received 2 (idle false)).rx_len ∧
    1 ≤ min (0xFFFF : Half).toNat (received 2 (idle false)).rx_len ∧
    (received 2 (idle false)).rx_len ≤ (received 2 (idle false)).params.RX_CAP ∧
    (∀ i, i < (received 2 (idle false)).rx_len → (Memory.read (received 2 (idle false)).RXB i).isSome = true) := by decide

/-- ReadOfNothingAndFailedCopyOut: an empty buffer, MAX = 0, and a failed copy-out. -/
theorem witness_read_nothing :
    (idle false).sess = .configured ∧ (idle false).rx_len = 0 ∧ (0 : Half).toNat = 0 ∧
    1 ≤ (received 1 (idle false)).rx_len ∧ 1 ≤ (1 : Half).toNat ∧
    ({ received 1 (idle false) with xfer_ok := false }).xfer_ok = false := by decide

/-- ReadFrame: a READ that returns bytes, and one that returns none. -/
theorem witness_read_frame :
    (∃ t, exec (.read 1) (received 2 (idle false)) = .next t ∧ t.rx_len = 1) ∧
    (∃ t, exec (.read 1) (idle false) = .next t ∧ t.rx_len = (idle false).rx_len) :=
  ⟨⟨_, rfl, rfl⟩, ⟨_, rfl, rfl⟩⟩

/-- TeardownReleasesAndResets, NoCallbackAfterTeardown: from Unconfigured and from a busy session. -/
theorem witness_teardown :
    State.reset.sess = .unconfigured ∧ (sending .stop 1).sess ≠ .unconfigured ∧
    (∃ t, exec .teardown State.reset = .next t) ∧ (∃ t, exec .teardown (sending .stop 1) = .next t) :=
  ⟨rfl, nofun, ⟨_, rfl⟩, ⟨_, rfl⟩⟩

/-! ## Witnesses: faults and refusals -/

/-- FaultedSessionRefusesFurtherOperation: a WRITE of no bytes and of one byte, and the way out. -/
theorem witness_faulted :
    faulted.sess = .faulted ∧ ([] : List Byte).length = (0 : Half).toNat ∧ [(1 : Byte)].length = (1 : Half).toNat ∧
    (∃ t, exec .teardown faulted = .next t ∧ t.sess ≠ .faulted) :=
  ⟨rfl, rfl, rfl, ⟨_, rfl, nofun⟩⟩

/-- StepsAreRefusedExactlyWhen: each of the three reasons, and a step that is not refused. -/
theorem witness_refused :
    exec (.write 0 []) State.reset = .refused .notConfigured ∧
    exec (.read 0) State.reset = .refused .notConfigured ∧
    exec (.configure 0 0 0 0 0 0 0) faulted = .refused .alreadyConfigured ∧
    exec (.configure 0 1 1000001 0 0 0 0) State.reset = .refused .zeroBitPeriod ∧
    (Instr.write 0 []).WellFormed := ⟨rfl, rfl, rfl, rfl, rfl⟩

/-- TickOutsideConfiguredDoesNothing. -/
theorem witness_tick_outside : State.reset.sess ≠ .configured ∧ faulted.sess ≠ .configured := by decide

/-- SchedulingFaultTakesTheTick: a fault of each timer, and fault inputs that are ignored. -/
theorem witness_scheduling_fault :
    ((sending .start 1).sess = .configured ∧ (sending .start 1).tx_armed = true ∧ (sending .start 1).rx_armed = false) ∧
    ((receiving false 0 1).sess = .configured ∧ (receiving false 0 1).rx_armed = true ∧
      (receiving false 0 1).tx_armed = false) := by decide

/-- FaultsExactlyOnCellsWithoutContents, from left to right: a Start callback and a READ in states no run reaches. -/
theorem witness_model_fault :
    exec (.tick true false false) { sending .start 1 with TXB := [] } = .fault .unspecifiedCell ∧
    exec (.tick true false false) { sending .start 1 with tx_rd := 4 } = .fault .noSuchCell ∧
    exec (.read 1) { idle false with rx_len := 1 } = .fault .unspecifiedCell := ⟨rfl, rfl, rfl⟩

/-! ## Witnesses: TICK -/

/-- TickCompletesFromEveryInvariantState, TimersCountDown, TransmitEngineTransitions, ReceiveEngineTransitions,
StepNeverFaultsUnderTheInvariant, InvariantBoundsStatedWidths. -/
theorem witness_tick_states :
    (BlockInv (sending .start 3) ∧ (sending .start 3).sess = .configured ∧ (sending .start 3).tx_cnt ≠ 1 ∧
      txFires (sending .start 3) = false) ∧
    (BlockInv (receiving false 7 1) ∧ (receiving false 7 1).sess = .configured ∧
      rxFires (receiving false 7 1) = true ∧ rxPhase (receiving false 7 1) = .samplingBit 7) ∧
    (BlockInv (receiving false 0 2) ∧ (receiving false 0 2).rx_cnt ≠ 1 ∧
      rxPhase (receiving false 0 2) = .armedForFirstBit) ∧
    (BlockInv (sending .stop 1) ∧ txFires (sending .stop 1) = true ∧ txPhase (sending .stop 1) = .stopBit) ∧
    BlockInv faulted :=
  ⟨⟨blockInv_of_checks rfl (by decide) (by decide), by decide⟩, ⟨blockInv_of_checks rfl (by decide) (by decide), rfl, rfl, rfl⟩,
    ⟨blockInv_of_checks rfl (by decide) (by decide), by decide, rfl⟩, ⟨blockInv_of_checks rfl (by decide) (by decide), rfl, rfl⟩,
    witness_inv_faulted⟩

/-- StartCallbackDrivesStartBit. -/
theorem witness_start_callback :
    (sending .start 1).sess = .configured ∧ (sending .start 1).tx_armed = true ∧ (sending .start 1).tx_cnt = 1 ∧
    (sending .start 1).tx_pos = .start ∧ (sending .start 1).tx_rd < (sending .start 1).params.TX_CAP ∧
    Memory.read (sending .start 1).TXB (sending .start 1).tx_rd = some 0x41 := by decide

/-- DataCallbackDrivesBitK: the first and the last data bit. -/
theorem witness_data_callback :
    ((sending (.data 0) 1).sess = .configured ∧ (sending (.data 0) 1).tx_armed = true ∧
      (sending (.data 0) 1).tx_cnt = 1 ∧ (sending (.data 0) 1).tx_pos = .data 0) ∧
    ((sending (.data 7) 1).tx_cnt = 1 ∧ (sending (.data 7) 1).tx_pos = .data 7) := by decide

/-- StopCallbackAdvancesOrEnds: with a byte left, and with none. -/
theorem witness_stop_callback :
    ((sending .stop 1).sess = .configured ∧ (sending .stop 1).tx_armed = true ∧ (sending .stop 1).tx_cnt = 1 ∧
      (sending .stop 1).tx_pos = .stop ∧ (sending .stop 1).tx_rd + 1 < (sending .stop 1).tx_len) ∧
    (({ sending .stop 1 with tx_rd := 1 }).tx_len ≤ ({ sending .stop 1 with tx_rd := 1 }).tx_rd + 1) := by decide

/-- EdgeEventStartsAByte: a falling edge, a kept edge, and neither. -/
theorem witness_edge_event :
    (BlockInv (idle false) ∧ (idle false).sess = .configured ∧ (idle false).edge_en = true ∧
      (idle false).rx_prev_valid = true ∧ (idle false).rx_prev = true ∧ (idle false).edge_pending = false) ∧
    (BlockInv { idle true with edge_pending := true } ∧ ({ idle true with edge_pending := true }).edge_en = true) :=
  ⟨⟨witness_inv_idle.1, by decide⟩, ⟨blockInv_of_checks rfl (by decide) (by decide), rfl⟩⟩

/-- MaskedEdgeIsKeptOnlyWithTheParameter: both values of the parameter. -/
theorem witness_masked_edge :
    (BlockInv (receiving false 3 2) ∧ (receiving false 3 2).sess = .configured ∧ (receiving false 3 2).edge_en = false) ∧
    (BlockInv (receiving true 3 2) ∧ (receiving true 3 2).sess = .configured ∧ (receiving true 3 2).edge_en = false) :=
  ⟨⟨blockInv_of_checks rfl (by decide) (by decide), rfl, rfl⟩, ⟨blockInv_of_checks rfl (by decide) (by decide), rfl, rfl⟩⟩

/-- SampleShiftsIntoTheAccumulator: the first and the seventh sample. -/
theorem witness_sample :
    (BlockInv (receiving false 0 1) ∧ (receiving false 0 1).sess = .configured ∧ (receiving false 0 1).rx_armed = true ∧
      (receiving false 0 1).rx_cnt = 1 ∧ (receiving false 0 1).rx_count.val < 7) ∧
    (BlockInv (receiving false 6 1) ∧ (receiving false 6 1).rx_count.val < 7) :=
  ⟨⟨blockInv_of_checks rfl (by decide) (by decide), by decide⟩, ⟨blockInv_of_checks rfl (by decide) (by decide), by decide⟩⟩

/-- A full receive buffer while the eighth sample is due. -/
def fullReceiving (latch : Bool) : State := received 2 (receiving latch 7 1)

theorem witness_inv_fullReceiving (latch : Bool) : BlockInv (fullReceiving latch) := by
  cases latch <;> exact blockInv_of_checks rfl (by decide) (by decide)

/-- EighthSampleCommitsOrDrops: the last cell free, and no cell free. -/
theorem witness_eighth_sample :
    (BlockInv (fullReceiving false) ∧ (fullReceiving false).sess = .configured ∧ (fullReceiving false).rx_armed = true ∧
      (fullReceiving false).rx_cnt = 1 ∧ (fullReceiving false).rx_count.val = 7 ∧
      (fullReceiving false).rx_len = (fullReceiving false).params.RX_CAP) ∧
    (BlockInv (received 1 (receiving false 7 1)) ∧
      (received 1 (receiving false 7 1)).rx_len < (received 1 (receiving false 7 1)).params.RX_CAP) :=
  ⟨⟨witness_inv_fullReceiving _, by decide⟩, ⟨blockInv_of_checks rfl (by decide) (by decide), by decide⟩⟩

/-- TickFrame, PinChangesOnlyWhenTransmitTimerFires: a tick that changes the pin, one that commits, one that faults. -/
theorem witness_tick_frame :
    (∃ t, exec (.tick true false false) (sending .start 1) = .next t ∧ t.tx_out ≠ (sending .start 1).tx_out) ∧
    (∃ t, exec (.tick true false false) (received 1 (receiving false 7 1)) = .next t ∧ t.rx_len ≠ 1 ∧
      Memory.read t.RXB 1 ≠ Memory.read (received 1 (receiving false 7 1)).RXB 1) ∧
    (∃ t, exec (.tick true true false) (sending .start 1) = .next t ∧ t.sess ≠ (sending .start 1).sess) :=
  ⟨⟨_, rfl, by decide⟩, ⟨_, rfl, by decide, by decide⟩, ⟨_, rfl, by decide⟩⟩

/-- EnginesDoNotInterfere: the same transmit engine beside an idle and beside a sampling receive engine, and the same
receive engine beside an idle and beside a busy transmit engine. -/
theorem witness_engines :
    (SameTransmit (idle false) (receiving false 3 2) ∧ (idle false).sess = .configured ∧
      (receiving false 3 2).sess = .configured ∧ (receiving false 3 2).bit_period = (idle false).bit_period ∧
      (receiving false 3 2).params = (idle false).params ∧
      (∃ t, exec (.tick false false false) (idle false) = .next t) ∧
      (∃ t, exec (.tick true false false) (receiving false 3 2) = .next t)) ∧
    (SameReceive (idle false) (sending (.data 3) 1) ∧ (sending (.data 3) 1).sess = .configured ∧
      (sending (.data 3) 1).bit_period = (idle false).bit_period ∧ (sending (.data 3) 1).params = (idle false).params ∧
      (∃ t, exec (.tick false false false) (sending (.data 3) 1) = .next t)) :=
  ⟨⟨⟨⟨rfl, rfl, fun _ => rfl, rfl, rfl, rfl, rfl, rfl, rfl⟩, rfl⟩, rfl, rfl, rfl, rfl, ⟨_, rfl⟩, ⟨_, rfl⟩⟩,
    ⟨⟨⟨fun _ => rfl, rfl, rfl, rfl, rfl, rfl, rfl⟩, rfl, rfl, rfl⟩, rfl, rfl, rfl, ⟨_, rfl⟩⟩⟩

/-! ## Witnesses: whole-machine rules -/

/-- StepKeepsTheInvariant, StepKeepsIdleLineHigh: a TICK that starts a frame, and one that ends a run. -/
theorem witness_step_keeps :
    (∃ t, step (given ⟨0x00000001, [], []⟩ (sending .start 1)) = .next t ∧ t.sess = .configured ∧ t.tx_pos = .data 0) ∧
    (∃ t, step (given ⟨0x00000001, [], []⟩ { sending .stop 1 with tx_rd := 1, tx_out := false }) = .next t ∧
      t.sess = .configured ∧ t.tx_pos = .start ∧ t.tx_busy = false) ∧
    BlockInv (given ⟨0x00000001, [], []⟩ (sending .start 1)) :=
  ⟨⟨_, rfl, rfl, rfl⟩, ⟨_, rfl, rfl, rfl, rfl⟩, blockInv_of_checks rfl (by decide) (by decide)⟩

/-- SessionStateHasThreeWriters: each of the three. -/
theorem witness_session_writers :
    (∃ t, exec (.configure 0 1 1 8 1 0 0) State.reset = .next t ∧ t.sess ≠ State.reset.sess) ∧
    (∃ t, exec .teardown (idle false) = .next t ∧ t.sess ≠ (idle false).sess) ∧
    (∃ t, exec (.tick true true true) (receiving false 0 1) = .next t ∧ t.sess ≠ (receiving false 0 1).sess) :=
  ⟨⟨_, rfl, by decide⟩, ⟨_, rfl, by decide⟩, ⟨_, rfl, by decide⟩⟩

/-- SchedFaultSeenIsSticky: a step that sets it, and a step from a state that has it. -/
theorem witness_sched_fault_seen :
    (∃ t, step (given ⟨0x00000002, [], []⟩ (sending .start 1)) = .next t ∧
      (sending .start 1).sched_fault_seen = false ∧ t.sched_fault_seen = true) ∧
    (∃ t, step (given ⟨0x00000002, [], []⟩ (sending .start 1)) = .next t ∧ t.sess = .faulted) ∧
    (∃ t, step (given ⟨0x40000000, [], []⟩ faulted) = .next t ∧ faulted.sched_fault_seen = true) :=
  ⟨⟨_, rfl, rfl, rfl⟩, ⟨_, rfl, rfl⟩, ⟨_, rfl, rfl⟩⟩

/-- StatusFlagsChangeOnlyByTheirWriters: each field set and cleared, the timers cleared by a callback and by a fault. -/
theorem witness_status_flags :
    (BlockInv (idle false) ∧ ∃ t, exec (.write 1 [0]) (idle false) = .next t ∧ t.tx_busy = true ∧ t.tx_armed = true) ∧
    (BlockInv { sending .stop 1 with tx_rd := 1 } ∧
      ∃ t, exec (.tick true false false) { sending .stop 1 with tx_rd := 1 } = .next t ∧
        t.tx_busy = false ∧ t.tx_armed = false) ∧
    (BlockInv (sending .start 2) ∧
      ∃ t, exec (.tick true true false) (sending .start 2) = .next t ∧ t.tx_armed = false ∧ t.sched_fault_seen = true) ∧
    (BlockInv (receiving false 7 1) ∧
      ∃ t, exec (.tick true false false) (receiving false 7 1) = .next t ∧ t.rx_armed = false) ∧
    (BlockInv (receiving false 0 2) ∧
      ∃ t, exec (.tick true false true) (receiving false 0 2) = .next t ∧ t.rx_armed = false) ∧
    (∃ t, exec (.tick false false false) (idle false) = .next t ∧ t.edge_en = false ∧ t.rx_armed = true) ∧
    (∃ t, exec (.tick false false false) (receiving true 7 1) = .next t ∧ t.edge_en = true ∧ t.edge_pending = true) ∧
    (∃ t, exec (.tick true false false) { idle true with edge_pending := true } = .next t ∧ t.edge_pending = false) ∧
    (∃ t, exec (.tick true false false) { idle false with rx_prev_valid := false } = .next t ∧ t.rx_prev_valid = true) ∧
    (∃ t, exec .teardown (idle false) = .next t ∧ t.rx_prev_valid = false) :=
  ⟨⟨witness_inv_idle.1, _, rfl, rfl, rfl⟩, ⟨blockInv_of_checks rfl (by decide) (by decide), _, rfl, rfl, rfl⟩,
    ⟨blockInv_of_checks rfl (by decide) (by decide), _, rfl, rfl, rfl⟩,
    ⟨blockInv_of_checks rfl (by decide) (by decide), _, rfl, rfl⟩,
    ⟨blockInv_of_checks rfl (by decide) (by decide), _, rfl, rfl⟩,
    ⟨_, rfl, rfl, rfl⟩, ⟨_, rfl, rfl, rfl⟩, ⟨_, rfl, rfl⟩,
    ⟨_, rfl, rfl⟩, ⟨_, rfl, rfl⟩⟩

/-- EachHostCommandHasOneResponse, ErrorsLeaveTheStateUnchanged: an error, and a READ with data. -/
theorem witness_responses :
    (∃ t, exec (.write 1 [0]) { idle false with xfer_ok := false } = .next t ∧ t.rsp = some ⟨.transferFault, 0, []⟩) ∧
    (∃ t, exec (.read 2) (received 1 (idle false)) = .next t ∧ t.rsp = some ⟨.ok, 1, [0x61]⟩) ∧
    (∃ t, exec (.tick true false false) (idle false) = .next t) :=
  ⟨⟨_, rfl, rfl⟩, ⟨_, rfl, rfl⟩, ⟨_, rfl⟩⟩

/-- HostCommandsTakeNoTime: a timer that runs on, one that is armed, one that runs on beside a READ. -/
theorem witness_no_time :
    (BlockInv (sending .start 2) ∧ ∃ t, exec (.write 1 [0]) (sending .start 2) = .next t ∧ t.tx_armed = true) ∧
    (BlockInv (idle false) ∧ ∃ t, exec (.write 1 [0]) (idle false) = .next t ∧ t.tx_armed = true) ∧
    (BlockInv (receiving false 3 2) ∧ ∃ t, exec (.read 1) (receiving false 3 2) = .next t ∧ t.rx_armed = true) :=
  ⟨⟨blockInv_of_checks rfl (by decide) (by decide), _, rfl, rfl⟩, ⟨witness_inv_idle.1, _, rfl, rfl⟩,
    ⟨blockInv_of_checks rfl (by decide) (by decide), _, rfl, rfl⟩⟩

/-! ## Witnesses: timelines -/

/-- TimerFiresInTheTickItsCountNames: no tick, and the last tick before the timer fires. -/
theorem witness_timer :
    BlockInv (sending .start 3) ∧ (sending .start 3).sess = .configured ∧ (sending .start 3).tx_armed = true ∧
    ([] : List Bool).length < (sending .start 3).tx_cnt ∧ [true, true].length < (sending .start 3).tx_cnt ∧
    BlockInv (receiving false 0 3) ∧ (receiving false 0 3).rx_armed = true ∧
    [true, false].length < (receiving false 0 3).rx_cnt :=
  ⟨blockInv_of_checks rfl (by decide) (by decide), by decide, by decide, by decide, by decide,
    blockInv_of_checks rfl (by decide) (by decide), by decide, by decide⟩

/-- FrameTimeline: the tick after START, and the tick in which the run ends. -/
theorem witness_frame :
    BlockInv (sending .start 3) ∧ (sending .start 3).sess = .configured ∧ (sending .start 3).tx_busy = true ∧
    (sending .start 3).tx_pos = .start ∧ (sending .start 3).tx_rd = 0 ∧
    (sending .start 3).tx_cnt = (sending .start 3).bit_period ∧ (sending .start 3).tx_out = true ∧
    [true].length ≤ 10 * (sending .start 3).bit_period * (sending .start 3).tx_len ∧
    (List.replicate 60 true).length ≤ 10 * (sending .start 3).bit_period * (sending .start 3).tx_len :=
  ⟨blockInv_of_checks rfl (by decide) (by decide), by decide⟩

/-- SampleTimeline: in the window, and at its end, with room and with none. -/
theorem witness_samples :
    (BlockInv (receiving false 0 3) ∧ (receiving false 0 3).sess = .configured ∧ (receiving false 0 3).rx_armed = true ∧
      (receiving false 0 3).rx_count = 0 ∧ (receiving false 0 3).rx_cnt = (receiving false 0 3).bit_period ∧
      (List.replicate 23 true).length < 8 * (receiving false 0 3).bit_period ∧
      (List.replicate 24 true).length = 8 * (receiving false 0 3).bit_period ∧
      (receiving false 0 3).rx_len < (receiving false 0 3).params.RX_CAP) ∧
    (BlockInv (received 2 (receiving false 0 3)) ∧
      (received 2 (receiving false 0 3)).rx_len = (received 2 (receiving false 0 3)).params.RX_CAP) :=
  ⟨⟨blockInv_of_checks rfl (by decide) (by decide), by decide⟩, ⟨blockInv_of_checks rfl (by decide) (by decide), rfl⟩⟩

/-- EdgeInTheCommitTick: both values of the parameter. -/
theorem witness_edge_in_commit :
    BlockInv (receiving false 7 1) ∧ BlockInv (receiving true 7 1) ∧ (receiving true 7 1).sess = .configured ∧
    (receiving true 7 1).rx_armed = true ∧ (receiving true 7 1).rx_cnt = 1 ∧ (receiving true 7 1).rx_count = 7 ∧
    (receiving true 7 1).rx_prev_valid = true ∧ (receiving true 7 1).rx_prev = true ∧
    (receiving true 7 1).edge_pending = false :=
  ⟨blockInv_of_checks rfl (by decide) (by decide), blockInv_of_checks rfl (by decide) (by decide), by decide⟩

/-- CommitsAreMoreThanEightPeriodsApart. -/
theorem witness_commits_apart :
    BlockInv (idle true) ∧ (idle true).sess = .configured ∧ (idle true).rx_armed = false ∧
    (List.replicate 24 false).length ≤ 8 * (idle true).bit_period :=
  ⟨witness_inv_idle.2, by decide⟩

/-- LoopbackRoundTrip, and the second part of StepKeepsIdleLineHigh: as many bytes as the receive buffer holds. -/
theorem witness_loopback :
    BlockInv (idle false) ∧ (idle false).sess = .configured ∧ (idle false).params.EDGE_LATCH_WHILE_MASKED = false ∧
    (idle false).tx_busy = false ∧ (idle false).tx_out = true ∧ (idle false).rx_armed = false ∧
    [1, (2 : Byte)].length = (2 : Half).toNat ∧ 1 ≤ (2 : Half).toNat ∧ (2 : Half).toNat ≤ (idle false).params.TX_CAP ∧
    (idle false).rx_len + (2 : Half).toNat ≤ (idle false).params.RX_CAP ∧ (idle false).xfer_ok = true :=
  ⟨witness_inv_idle.1, by decide⟩

end Sys2Proof.Machine.Tests
end

/-! # From a state of the invariant no step faults (O45)

A step can fault only where it loads a buffer cell: in the Start callback of a tick and in the drain of a READ. The
invariant says of both that the cell exists and holds a byte. -/

namespace Sys2Proof.Machine

/-! ## Where an instruction can fault -/

/-- A tick faults exactly at a Start callback whose cell does not exist or has no contents (R60, R75). -/
theorem exec_tick_fault_iff {rx ftx frx : Bool} {s : State} :
    (∃ f, exec (.tick rx ftx frx) s = .fault f) ↔
      s.sess = .configured ∧ schedFault s ftx frx = false ∧ txFires s = true ∧ s.tx_pos = .start ∧
        (s.params.TX_CAP ≤ s.tx_rd ∨ Memory.read s.TXB s.tx_rd = none) := by
  by_cases hs : s.sess = .configured
  · cases hf : schedFault s ftx frx with
    | true => simp [exec_tick_of_fault hs hf]
    | false =>
      simp only [exec_tick_of_engines hs hf, outcomeOf_eq_fault, tickEngines_eq_error, txTimerStep_error_iff, hs,
        true_and]
  · simp [exec_tick_of_not_configured hs, hs]

theorem exec_configure_ne_fault (w1 w2 w3 w4 w5 w6 w7 : Word) (s : State) (f : Fault) :
    exec (.configure w1 w2 w3 w4 w5 w6 w7) s ≠ .fault f := by
  simp only [exec, execConfigure]
  split
  · unfold configureNew
    split
    · nofun
    · split
      · nofun
      · split <;> nofun
  · nofun
  · nofun

theorem exec_write_ne_fault (n : Half) (payload : List Byte) (s : State) (f : Fault) :
    exec (.write n payload) s ≠ .fault f := by
  simp only [exec, execWrite]
  split
  · nofun
  · split <;> nofun

theorem exec_teardown_ne_fault (s : State) (f : Fault) : exec .teardown s ≠ .fault f := by
  rw [exec_teardown_eq]
  nofun

/-- A READ faults exactly where it has bytes to return, its copy-out succeeds, and a cell below the valid length does
not exist or has no contents (R60, R75). -/
theorem exec_read_fault_iff {max : Half} {s : State} :
    (∃ f, exec (.read max) s = .fault f) ↔
      s.sess = .configured ∧ s.xfer_ok = true ∧ 1 ≤ min max.toNat s.rx_len ∧
        ∃ j, j < s.rx_len ∧ (s.params.RX_CAP ≤ j ∨ Memory.read s.RXB j = none) := by
  rw [← drain_error_iff (k := min max.toNat s.rx_len) (Nat.min_le_right _ _)]
  cases hs : s.sess with
  | unconfigured => simp [exec, execRead, hs]
  | faulted => simp [exec, execRead, hs]
  | configured =>
    simp only [exec, execRead, hs, readConfigured, readCount, true_and]
    by_cases hk : min max.toNat s.rx_len = 0
    · simp [hk]
    · cases hx : s.xfer_ok with
      | false => simp [hk]
      | true =>
        have hpos : 1 ≤ min max.toNat s.rx_len := Nat.one_le_iff_ne_zero.mpr hk
        cases hd : drain (min max.toNat s.rx_len) s <;> simp [hk, hpos]

/-! ## What the invariant gives -/

theorem BySession.of_configured {s : State} (h : BySession s) (hs : s.sess = .configured) :
    SessionInv s ∧ EnginesInv s := by
  simpa only [BySession, hs] using h

theorem BySession.of_faulted {s : State} (h : BySession s) (hs : s.sess = .faulted) :
    SessionInv s ∧ FrozenInv s := by
  simpa only [BySession, hs] using h

theorem BySession.of_unconfigured {s : State} (h : BySession s) (hs : s.sess = .unconfigured) : ResetFields s := by
  simpa only [BySession, hs] using h

/-- While the transmit timer is armed, the cell at the read cursor exists and holds a byte (R50, R61). -/
theorem BlockInv.tx_cell_readable {s : State} (h : BlockInv s) (hs : s.sess = .configured) (ha : s.tx_armed = true) :
    s.tx_rd < s.params.TX_CAP ∧ (Memory.read s.TXB s.tx_rd).isSome = true := by
  obtain ⟨hbuf, hby⟩ := h
  obtain ⟨hsess, heng⟩ := hby.of_configured hs
  have hcell := hsess.tx_cells _ (heng.queued (heng.busy_armed.trans ha))
  exact ⟨hbuf.tx_below _ hcell, hcell⟩

/-- Every cell below the valid length of RXB exists and holds a byte (R50, R61). -/
theorem BlockInv.rx_cell_readable {s : State} (h : BlockInv s) (hs : s.sess = .configured) {j : Nat}
    (hj : j < s.rx_len) : j < s.params.RX_CAP ∧ (Memory.read s.RXB j).isSome = true := by
  obtain ⟨hbuf, hby⟩ := h
  have hcell := (hby.of_configured hs).1.rx_cells j hj
  exact ⟨hbuf.rx_below j hcell, hcell⟩

/-- Where a cell exists and holds a byte, a load of it cannot fail. -/
theorem not_missing_of_readable {cap a : Nat} {m : Memory} (h : a < cap ∧ (Memory.read m a).isSome = true) :
    ¬ (cap ≤ a ∨ Memory.read m a = none) := by
  obtain ⟨hlt, hsome⟩ := h
  rintro (hle | hnone)
  · exact Nat.not_le_of_lt hlt hle
  · simp [hnone] at hsome

/-! ## The invariant speaks of no port, so taking a step from the input keeps it -/

theorem SessionInv.accept {s : State} (h : SessionInv s) (p : StepInput) (rest : List StepInput) :
    SessionInv (s.accept p rest) := by
  cases h; constructor <;> assumption

theorem EnginesInv.accept {s : State} (h : EnginesInv s) (p : StepInput) (rest : List StepInput) :
    EnginesInv (s.accept p rest) := by
  cases h; constructor <;> assumption

theorem FrozenInv.accept {s : State} (h : FrozenInv s) (p : StepInput) (rest : List StepInput) :
    FrozenInv (s.accept p rest) := by
  cases h; constructor <;> assumption

theorem BuffersInv.accept {s : State} (h : BuffersInv s) (p : StepInput) (rest : List StepInput) :
    BuffersInv (s.accept p rest) := by
  cases h; constructor <;> assumption

theorem BlockInv.accept {s : State} (h : BlockInv s) (p : StepInput) (rest : List StepInput) :
    BlockInv (s.accept p rest) := by
  obtain ⟨hbuf, hby⟩ := h
  refine ⟨hbuf.accept p rest, ?_⟩
  cases hs : s.sess with
  | unconfigured => simpa only [BySession, accept_sess, hs] using resetFields_accept (hby.of_unconfigured hs) p rest
  | configured =>
    obtain ⟨hsess, heng⟩ := hby.of_configured hs
    simpa only [BySession, accept_sess, hs] using And.intro (hsess.accept p rest) (heng.accept p rest)
  | faulted =>
    obtain ⟨hsess, hfro⟩ := hby.of_faulted hs
    simpa only [BySession, accept_sess, hs] using And.intro (hsess.accept p rest) (hfro.accept p rest)

/-! ## No fault -/

/-- No instruction faults from a state of the invariant: each cell it loads exists and holds a byte (R61). -/
theorem BlockInv.exec_ne_fault {s : State} (h : BlockInv s) (i : Instr) (f : Fault) : exec i s ≠ .fault f := by
  intro hf
  cases i with
  | tick rx ftx frx =>
    obtain ⟨hs, -, hfires, -, hmissing⟩ := exec_tick_fault_iff.mp ⟨f, hf⟩
    have ⟨ha, _⟩ := (txFires_eq_true s).mp hfires
    exact not_missing_of_readable (h.tx_cell_readable hs ha) hmissing
  | configure w1 w2 w3 w4 w5 w6 w7 => exact exec_configure_ne_fault _ _ _ _ _ _ _ s f hf
  | write n payload => exact exec_write_ne_fault n payload s f hf
  | read max =>
    obtain ⟨hs, -, -, j, hj, hmissing⟩ := exec_read_fault_iff.mp ⟨f, hf⟩
    exact not_missing_of_readable (h.rx_cell_readable hs hj) hmissing
  | teardown => exact exec_teardown_ne_fault s f hf

/-- Settles O45: a step that faults ran a decoded instruction that did, and taking it from the input keeps the
invariant, under which no instruction faults. -/
theorem stepNeverFaultsUnderTheInvariant : Obligations.StepNeverFaultsUnderTheInvariant := by
  intro s f h hf
  obtain ⟨p, rest, i, -, -, hexec⟩ := step_fault_cases hf
  exact (h.accept p rest).exec_ne_fault i f hexec

end Sys2Proof.Machine

/-! # Every step keeps the invariant (O44)

While Configured, the invariant of R50 falls into three parts that no rule couples: what CONFIGURE fixes, the transmit
engine and the receive engine. A WRITE and a transmit callback write the second alone, a READ, a sample and an edge event
the third alone. -/

namespace Sys2Proof.Machine

/-! ## The invariant of a Configured session by engine -/

/-- What CONFIGURE fixes for the session: R50 items 1 and 2, the validated configuration and the legal capacities. -/
structure SetupInv (s : State) : Prop where
  legal : s.params.Legal
  pins : pinsValid s.cfg_tx_pin s.cfg_rx_pin = true
  baud_pos : 1 ≤ signed s.cfg_baud
  baud_le : signed s.cfg_baud ≤ 1000000
  period : s.bit_period = Config.periodNum / (signed s.cfg_baud).toNat
  period_pos : 1 ≤ s.bit_period
  period_le : s.bit_period ≤ 1000000
  driven : s.tx_oe = true

/-- What R50 says of the transmit engine and its buffer while Configured. -/
structure TransmitInv (s : State) : Prop where
  wf : Memory.wf s.TXB
  below : ∀ i, (Memory.read s.TXB i).isSome = true → i < s.params.TX_CAP
  cells : ∀ i, i < s.tx_len → (Memory.read s.TXB i).isSome = true
  rd_le : s.tx_rd ≤ s.tx_len
  len_le : s.tx_len ≤ s.params.TX_CAP
  busy_armed : s.tx_busy = s.tx_armed
  idle : s.tx_busy = false → s.tx_len = 0 ∧ s.tx_rd = 0 ∧ s.tx_pos = .start
  queued : s.tx_busy = true → s.tx_rd < s.tx_len
  cnt : s.tx_armed = true → 1 ≤ s.tx_cnt ∧ s.tx_cnt ≤ s.bit_period

/-- What R50 says of the receive engine and its buffer while Configured. -/
structure ReceiveInv (s : State) : Prop where
  wf : Memory.wf s.RXB
  below : ∀ i, (Memory.read s.RXB i).isSome = true → i < s.params.RX_CAP
  cells : ∀ i, i < s.rx_len → (Memory.read s.RXB i).isSome = true
  len_le : s.rx_len ≤ s.params.RX_CAP
  pending : s.edge_pending = true → s.params.EDGE_LATCH_WHILE_MASKED = true
  acc_low : ∀ j, j < 8 - s.rx_count.val → s.rx_acc.getLsbD j = false
  edge : s.edge_en = !s.rx_armed
  idle : s.rx_armed = false → s.rx_count = 0 ∧ s.rx_acc = 0
  cnt : s.rx_armed = true → 1 ≤ s.rx_cnt ∧ s.rx_cnt ≤ s.bit_period

/-- While Configured the invariant is that of the setup and of each engine. -/
theorem blockInv_iff_of_configured {s : State} (hs : s.sess = .configured) :
    BlockInv s ↔ SetupInv s ∧ TransmitInv s ∧ ReceiveInv s := by
  constructor
  · rintro ⟨b, hby⟩
    obtain ⟨h, e⟩ := hby.of_configured hs
    exact ⟨⟨b.legal, h.pins, h.baud_pos, h.baud_le, h.period, h.period_pos, h.period_le, h.driven⟩,
      ⟨b.tx_wf, b.tx_below, h.tx_cells, h.rd_le, h.tx_len_le, e.busy_armed, e.idle, e.queued, e.tx_cnt⟩,
      ⟨b.rx_wf, b.rx_below, h.rx_cells, h.rx_len_le, h.pending, h.acc_low, e.edge, e.rx_idle, e.rx_cnt⟩⟩
  · rintro ⟨c, x, r⟩
    refine ⟨⟨c.legal, x.wf, r.wf, x.below, r.below⟩, ?_⟩
    simp only [BySession, hs]
    exact ⟨⟨c.pins, c.baud_pos, c.baud_le, c.period, c.period_pos, c.period_le, c.driven, r.pending, x.rd_le, x.len_le,
        r.len_le, r.acc_low, x.cells, r.cells⟩,
      ⟨x.busy_armed, x.idle, x.queued, x.cnt, r.edge, r.idle, r.cnt⟩⟩

/-! The invariant says nothing of the response port, so `respond` and `noResponse` keep it. -/

theorem BuffersInv.withRsp {s : State} (h : BuffersInv s) (r : Option Response) : BuffersInv { s with rsp := r } :=
  ⟨h.legal, h.tx_wf, h.rx_wf, h.tx_below, h.rx_below⟩

theorem SessionInv.withRsp {s : State} (h : SessionInv s) (r : Option Response) : SessionInv { s with rsp := r } := by
  cases h; constructor <;> assumption

theorem EnginesInv.withRsp {s : State} (h : EnginesInv s) (r : Option Response) : EnginesInv { s with rsp := r } := by
  cases h; constructor <;> assumption

theorem FrozenInv.withRsp {s : State} (h : FrozenInv s) (r : Option Response) : FrozenInv { s with rsp := r } :=
  ⟨h.tx_off, h.rx_off, h.edge_off⟩

theorem ResetFields.withRsp {s : State} (h : ResetFields s) (r : Option Response) : ResetFields { s with rsp := r } :=
  congrArg (fun u : State => { u with rsp := r }) h

theorem BlockInv.withRsp {s : State} (h : BlockInv s) (r : Option Response) : BlockInv { s with rsp := r } := by
  obtain ⟨hbuf, hby⟩ := h
  refine ⟨hbuf.withRsp r, ?_⟩
  cases hs : s.sess with
  | unconfigured => simpa only [BySession, hs] using (hby.of_unconfigured hs).withRsp r
  | configured =>
    obtain ⟨hsess, heng⟩ := hby.of_configured hs
    simpa only [BySession, hs] using And.intro (hsess.withRsp r) (heng.withRsp r)
  | faulted =>
    obtain ⟨hsess, hfro⟩ := hby.of_faulted hs
    simpa only [BySession, hs] using And.intro (hsess.withRsp r) (hfro.withRsp r)

theorem BlockInv.respond {s : State} (h : BlockInv s) (st : Status) (c : Half) (d : List Byte) :
    BlockInv (respond st c d s) := h.withRsp _

theorem BlockInv.noResponse {s : State} (h : BlockInv s) : BlockInv (noResponse s) := h.withRsp _

/-! ## The frames of the two engines -/

theorem SetupInv.of_txFrame {u t : State} (h : SetupInv u) (f : TxFrame u t) : SetupInv t := by
  obtain ⟨legal, pins, baud_pos, baud_le, period, period_pos, period_le, driven⟩ := h
  constructor <;> simpa only [f.params, f.cfg_tx_pin, f.cfg_rx_pin, f.cfg_baud, f.bit_period, f.tx_oe]

theorem SetupInv.of_rxFrame {u t : State} (h : SetupInv u) (f : RxFrame u t) : SetupInv t := by
  obtain ⟨legal, pins, baud_pos, baud_le, period, period_pos, period_le, driven⟩ := h
  constructor <;> simpa only [f.params, f.cfg_tx_pin, f.cfg_rx_pin, f.cfg_baud, f.bit_period, f.tx_oe]

/-- The transmit engine's step keeps the receive engine's invariant. -/
theorem ReceiveInv.of_txFrame {u t : State} (h : ReceiveInv u) (f : TxFrame u t) : ReceiveInv t := by
  obtain ⟨wf, below, cells, len_le, pending, acc_low, edge, idle, cnt⟩ := h
  constructor <;>
    simpa only [f.params, f.bit_period, f.RXB, f.rx_len, f.edge_pending, f.rx_count, f.rx_acc, f.edge_en, f.rx_armed,
      f.rx_cnt]

/-- The receive engine's step keeps the transmit engine's invariant. -/
theorem TransmitInv.of_rxFrame {u t : State} (h : TransmitInv u) (f : RxFrame u t) : TransmitInv t := by
  obtain ⟨wf, below, cells, rd_le, len_le, busy_armed, idle, queued, cnt⟩ := h
  constructor <;>
    simpa only [f.params, f.bit_period, f.TXB, f.tx_len, f.tx_rd, f.tx_busy, f.tx_armed, f.tx_pos, f.tx_cnt]

/-! ## The buffers -/

/-- A write below the capacity lists no cell outside it. -/
theorem below_write {m : Memory} {cap i : Nat} {v : Byte}
    (h : ∀ a, (Memory.read m a).isSome = true → a < cap) (hi : i < cap) (a : Nat)
    (ha : (Memory.read (Memory.write m i v) a).isSome = true) : a < cap := by
  rw [read_write] at ha
  split at ha
  · omega
  · exact h a ha

/-- A write behind the valid length makes it one longer. -/
theorem cells_write {m : Memory} {len : Nat} {v : Byte}
    (h : ∀ a, a < len → (Memory.read m a).isSome = true) (a : Nat) (ha : a < len + 1) :
    (Memory.read (Memory.write m len v) a).isSome = true := by
  rw [read_write]
  split
  · rfl
  · exact h a (by omega)

/-- Bytes stored below the capacity list no cell outside it. -/
theorem below_storeCells {m : Memory} {cap start : Nat} {bs : List Byte}
    (h : ∀ a, (Memory.read m a).isSome = true → a < cap) (hcap : start + bs.length ≤ cap) (a : Nat)
    (ha : (Memory.read (storeCells m start bs) a).isSome = true) : a < cap := by
  by_cases hout : a < start ∨ start + bs.length ≤ a
  · rw [read_storeCells_outside bs m start a hout] at ha
    exact h a ha
  · omega

/-- Bytes stored behind the valid length make it longer by their number. -/
theorem cells_storeCells {m : Memory} {len : Nat} {bs : List Byte}
    (h : ∀ a, a < len → (Memory.read m a).isSome = true) (a : Nat) (ha : a < len + bs.length) :
    (Memory.read (storeCells m len bs) a).isSome = true := by
  by_cases hlt : a < len
  · rw [read_storeCells_outside bs m len a (.inl hlt)]
    exact h a hlt
  · obtain ⟨i, rfl⟩ := Nat.exists_eq_add_of_le (Nat.le_of_not_lt hlt)
    have hi : i < bs.length := by omega
    rw [read_storeCells_inside bs m len i hi, List.getElem?_eq_getElem hi]
    rfl

/-! ## The engines of a tick -/

theorem SetupInv.noResponse {s : State} (h : SetupInv s) : SetupInv (noResponse s) := { h with }

theorem TransmitInv.noResponse {s : State} (h : TransmitInv s) : TransmitInv (noResponse s) := { h with }

theorem ReceiveInv.noResponse {s : State} (h : ReceiveInv s) : ReceiveInv (noResponse s) := { h with }

/-- A callback that arms the timer for P ticks again keeps the transmit engine's invariant, with the cursor at any byte
of the run. -/
theorem TransmitInv.rearm {s : State} (h : TransmitInv s) (hp : 1 ≤ s.bit_period) (hbusy : s.tx_busy = true) {r : Nat}
    (hr : r < s.tx_len) (out : Bool) (shift : Byte) (pos : TxPos) :
    TransmitInv { s with
      tx_out := out, tx_shift := shift, tx_pos := pos, tx_rd := r, tx_armed := true, tx_cnt := s.bit_period } :=
  { h with
    rd_le := Nat.le_of_lt hr
    busy_armed := hbusy
    idle := fun hidle => absurd (hbusy.symm.trans hidle) nofun
    queued := fun _ => hr
    cnt := fun _ => ⟨hp, Nat.le_refl _⟩ }

/-- A transmit timer step keeps the transmit engine's invariant (R106, R135-R137). -/
theorem TransmitInv.timerStep {s t : State} (h : TransmitInv s) (hp : 1 ≤ s.bit_period)
    (ht : txTimerStep s (Machine.noResponse s) = .ok t) : TransmitInv t := by
  have hbusy (ha : s.tx_armed = true) : s.tx_busy = true := h.busy_armed.trans ha
  have hrd (ha : s.tx_armed = true) : s.tx_rd < s.tx_len := h.queued (hbusy ha)
  obtain ⟨-, rfl⟩ | ⟨ha, hc, rfl⟩ | ⟨ha, -, -, b, -, rfl⟩ | ⟨ha, -, k, -, rfl⟩ | ⟨ha, -, -, hr, rfl⟩ | ⟨-, -, -, -, rfl⟩ :=
    txTimerStep_cases ht
  · exact h.noResponse
  · have ⟨hlo, hhi⟩ := h.cnt ha
    have hcnt : 1 ≤ s.tx_cnt - 1 ∧ s.tx_cnt - 1 ≤ s.bit_period := by omega
    exact { h with cnt := fun _ => hcnt }
  · exact h.noResponse.rearm hp (hbusy ha) (hrd ha) _ _ _
  · exact h.noResponse.rearm hp (hbusy ha) (hrd ha) _ _ _
  · exact h.noResponse.rearm hp (hbusy ha) hr _ _ _
  · exact { h with
      cells := nofun, rd_le := Nat.le_refl _, len_le := Nat.zero_le _, busy_armed := rfl
      idle := fun _ => ⟨rfl, rfl, rfl⟩, queued := nofun, cnt := nofun }

/-- Each sample frees one bit less of the accumulator (R164). -/
theorem shiftIn_acc_low {acc : Byte} {x : Bool} {c c' : Nat} (hc : c' = c + 1)
    (h : ∀ j, j < 8 - c → acc.getLsbD j = false) (j : Nat) (hj : j < 8 - c') :
    (shiftIn acc x).getLsbD j = false := by
  rw [shiftIn_low acc x j (by omega)]
  exact h (j + 1) (by omega)

/-- The accumulator of an idle receive engine is 0 (R161, R165). -/
theorem zero_acc_low (n j : Nat) (_ : j < n) : (0 : Byte).getLsbD j = false := by simp

/-- A receive timer step keeps the receive engine's invariant, whatever the transmit step wrote before it (R106,
R164-R166). -/
theorem ReceiveInv.timerStep {s u : State} (h : ReceiveInv s) (hp : 1 ≤ s.bit_period)
    (f : TxFrame (Machine.noResponse s) u) (x : Bool) : ReceiveInv (rxTimerStep s x u) := by
  have hu : ReceiveInv u := h.noResponse.of_txFrame f
  have hP : s.bit_period = u.bit_period := f.bit_period.symm
  have hcap : s.params.RX_CAP = u.params.RX_CAP := congrArg Config.Params.RX_CAP f.params.symm
  obtain ⟨-, e⟩ | ⟨ha, hc, e⟩ | ⟨ha, -, c, hc, e⟩ | ⟨-, -, -, hroom, e⟩ | ⟨-, -, -, -, e⟩ := rxTimerStep_cases s x u <;>
    rw [e]
  · exact hu
  · have ⟨hlo, hhi⟩ := h.cnt ha
    have hcnt : 1 ≤ s.rx_cnt - 1 ∧ s.rx_cnt - 1 ≤ u.bit_period := by omega
    exact { hu with cnt := fun _ => hcnt }
  · exact { hu with
      acc_low := shiftIn_acc_low hc h.acc_low
      edge := hu.edge.trans (congrArg not (f.rx_armed.trans ha))
      idle := nofun
      cnt := fun _ => ⟨hp, Nat.le_of_eq hP⟩ }
  · exact { hu with
      wf := write_wf h.wf _ _
      below := hcap ▸ below_write h.below hroom
      cells := cells_write h.cells
      len_le := hcap ▸ hroom
      acc_low := zero_acc_low _, edge := rfl, idle := fun _ => ⟨rfl, rfl⟩, cnt := nofun }
  · exact { hu with
      acc_low := zero_acc_low _, edge := rfl, idle := fun _ => ⟨rfl, rfl⟩, cnt := nofun }

/-- The edge step keeps the receive engine's invariant, whatever the timer steps wrote before it (R160-R162). -/
theorem ReceiveInv.edgeStep {s v : State} (h : ReceiveInv v) (hp : 1 ≤ s.bit_period) (hP : v.bit_period = s.bit_period)
    (hparams : v.params = s.params) (rx : Bool) : ReceiveInv (edgeStep s rx v) := by
  obtain ⟨-, e⟩ | ⟨-, hl, e⟩ | ⟨-, -, e⟩ := edgeStep_cases s rx v <;> rw [e]
  · exact { h with
      pending := nofun, acc_low := zero_acc_low _, edge := rfl, idle := nofun
      cnt := fun _ => ⟨hp, Nat.le_of_eq hP.symm⟩ }
  · have ⟨_, _, hlatch⟩ := (edgeLatched_eq_true s rx).mp hl
    exact { h with pending := fun _ => hparams ▸ hlatch }
  · exact h

theorem ReceiveInv.prevUpdate {s : State} (h : ReceiveInv s) (rx : Bool) : ReceiveInv (prevUpdate rx s) := { h with }

/-- What the transmit step wrote stands to the end of the tick (R113). -/
theorem receiveSteps_frame (s : State) (rx : Bool) (u : State) :
    RxFrame u (prevUpdate rx (edgeStep s rx (rxTimerStep s rx u))) :=
  ((rxTimerStep_frame s rx u).trans (edgeStep_frame s rx _)).trans (prevUpdate_frame rx _)

/-- A tick of the engines keeps the invariant: each step keeps its own engine's part and the frames keep the rest. -/
theorem BlockInv.tickEngines {s u : State} (h : BlockInv s) (hs : s.sess = .configured)
    (hu : txTimerStep s (Machine.noResponse s) = .ok u) (rx : Bool) :
    BlockInv (prevUpdate rx (edgeStep s rx (rxTimerStep s rx u))) := by
  obtain ⟨hset, htx, hrx⟩ := (blockInv_iff_of_configured hs).mp h
  have f : TxFrame (Machine.noResponse s) u := txTimerStep_frame hu
  have g : RxFrame u (rxTimerStep s rx u) := rxTimerStep_frame s rx u
  have gAll := receiveSteps_frame s rx u
  refine (blockInv_iff_of_configured (gAll.sess.trans (f.sess.trans hs))).mpr ⟨?_, ?_, ?_⟩
  · exact (hset.noResponse.of_txFrame f).of_rxFrame gAll
  · exact (htx.timerStep hset.period_pos hu).of_rxFrame gAll
  · exact ((hrx.timerStep hset.period_pos f rx).edgeStep hset.period_pos (g.bit_period.trans f.bit_period)
      (g.params.trans f.params) rx).prevUpdate rx

/-- The fault entry keeps the invariant: no timer and no edge delivery are left (R240). -/
theorem BlockInv.faultEntry {s : State} (h : BlockInv s) (hs : s.sess = .configured) : BlockInv (faultEntry s) := by
  obtain ⟨hbuf, hby⟩ := h
  obtain ⟨hsess, -⟩ := hby.of_configured hs
  exact ⟨{ hbuf with }, { hsess with pending := nofun }, ⟨rfl, rfl, rfl⟩⟩

theorem BlockInv.exec_tick {s t : State} {rx ftx frx : Bool} (h : BlockInv s)
    (ht : exec (.tick rx ftx frx) s = .next t) : BlockInv t := by
  obtain ⟨-, rfl⟩ | ⟨hs, -, rfl⟩ | ⟨hs, -, u, hu, rfl⟩ := exec_tick_cases ht
  · exact h.noResponse
  · exact h.noResponse.faultEntry hs
  · exact h.tickEngines hs hu rx

/-! ## The host commands -/

/-- A new session meets the invariant: its engines are idle and its buffers of no valid length (R193). -/
theorem BuffersInv.initSession {s : State} (h : BuffersInv s) {w1 w2 w3 : Word} {p : Nat}
    (hpins : pinsValid w1 w2 = true) (hp : bitPeriod w3.toInt = .ticks p) : BlockInv (initSession w1 w2 w3 p s) := by
  obtain ⟨hpos, hle, hperiod, hp1, hp2⟩ := bitPeriod_eq_ticks hp
  refine (blockInv_iff_of_configured rfl).mpr ⟨?_, ?_, ?_⟩
  · exact ⟨h.legal, hpins, hpos, hle, hperiod, hp1, hp2, rfl⟩
  · exact ⟨h.tx_wf, h.tx_below, nofun, Nat.le_refl _, Nat.zero_le _, rfl, fun _ => ⟨rfl, rfl, rfl⟩, nofun, nofun⟩
  · exact ⟨h.rx_wf, h.rx_below, nofun, Nat.zero_le _, nofun, zero_acc_low _, rfl, fun _ => ⟨rfl, rfl⟩, nofun⟩

theorem BlockInv.exec_configure {s t : State} {w1 w2 w3 w4 w5 w6 w7 : Word} (h : BlockInv s)
    (ht : exec (.configure w1 w2 w3 w4 w5 w6 w7) s = .next t) : BlockInv t := by
  obtain ⟨-, rfl | rfl | ⟨-, hpins, p, hp, rfl⟩⟩ := exec_configure_cases ht
  · exact h.respond _ _ _
  · exact h.respond _ _ _
  · obtain ⟨hbuf, -⟩ := h
    exact (hbuf.initSession hpins hp).respond _ _ _

/-- Bytes queued behind those of a run, with the timer armed, keep the transmit engine's invariant (R133). -/
theorem TransmitInv.queue {s : State} (h : TransmitInv s) {payload : List Byte} (hpos : 1 ≤ payload.length)
    (hcap : s.tx_len + payload.length ≤ s.params.TX_CAP) {cnt : Nat} (hcnt : 1 ≤ cnt ∧ cnt ≤ s.bit_period)
    (out : Bool) (pos : TxPos) :
    TransmitInv { s with
      TXB := storeCells s.TXB s.tx_len payload, tx_len := s.tx_len + payload.length
      tx_out := out, tx_pos := pos, tx_busy := true, tx_armed := true, tx_cnt := cnt } :=
  have hrd : s.tx_rd < s.tx_len + payload.length := Nat.lt_of_le_of_lt h.rd_le (by omega)
  { wf := storeCells_wf h.wf _ _
    below := below_storeCells h.below hcap
    cells := cells_storeCells h.cells
    rd_le := Nat.le_of_lt hrd
    len_le := hcap
    busy_armed := rfl
    idle := nofun
    queued := fun _ => hrd
    cnt := fun _ => hcnt }

/-- The append of an accepted WRITE keeps the transmit engine's invariant, with START where the engine is idle (R133,
R134). -/
theorem TransmitInv.append {s : State} (h : TransmitInv s) (hp : 1 ≤ s.bit_period) {payload : List Byte}
    (hpos : 1 ≤ payload.length) (hcap : s.tx_len + payload.length ≤ s.params.TX_CAP) :
    TransmitInv (txAppend payload s) := by
  cases hb : s.tx_busy with
  | true =>
    have ha : s.tx_armed = true := h.busy_armed.symm.trans hb
    rw [txAppend_busy payload hb]
    simpa only [hb, ha] using h.queue hpos hcap (h.cnt ha) s.tx_out s.tx_pos
  | false =>
    rw [txAppend_idle payload hb]
    exact h.queue hpos hcap ⟨hp, Nat.le_refl _⟩ true .start

/-- The append of a WRITE writes the transmit registers alone. -/
theorem txAppend_setup_receive {s : State} (payload : List Byte) (hset : SetupInv s) (hrx : ReceiveInv s) :
    SetupInv (txAppend payload s) ∧ ReceiveInv (txAppend payload s) ∧ (txAppend payload s).sess = s.sess := by
  cases hb : s.tx_busy with
  | true => rw [txAppend_busy payload hb]; exact ⟨{ hset with }, { hrx with }, rfl⟩
  | false => rw [txAppend_idle payload hb]; exact ⟨{ hset with }, { hrx with }, rfl⟩

/-- An accepted WRITE of at least one byte keeps the invariant. -/
theorem BlockInv.txAppend {s : State} (h : BlockInv s) (hs : s.sess = .configured) {payload : List Byte}
    (hpos : 1 ≤ payload.length) (hcap : s.tx_len + payload.length ≤ s.params.TX_CAP) :
    BlockInv (txAppend payload s) := by
  obtain ⟨hset, htx, hrx⟩ := (blockInv_iff_of_configured hs).mp h
  obtain ⟨hset', hrx', hsess⟩ := txAppend_setup_receive payload hset hrx
  exact (blockInv_iff_of_configured (hsess.trans hs)).mpr ⟨hset', htx.append hset.period_pos hpos hcap, hrx'⟩

theorem BlockInv.exec_write {s t : State} {n : Half} {payload : List Byte} (h : BlockInv s)
    (ht : exec (.write n payload) s = .next t) : BlockInv t := by
  obtain ⟨hlen, ⟨-, rfl⟩ | ⟨hs, rfl⟩⟩ := exec_write_cases ht
  · exact h.respond _ _ _
  · obtain ⟨-, e⟩ | ⟨-, -, e⟩ | ⟨-, -, -, e⟩ | ⟨hpos, hcap, -, e⟩ := enqueue_cases n payload s <;> rw [e]
    · exact h.respond _ _ _
    · exact h.respond _ _ _
    · exact h.respond _ _ _
    · rw [← hlen] at hpos hcap
      exact (h.txAppend hs hpos hcap).respond _ _ _

/-- A drain keeps the receive engine's invariant: the bytes left stand in the first cells, and no cell outside the old
valid length is written (R199). -/
theorem ReceiveInv.drain {s t : State} {k : Nat} {data : List Byte} (h : ReceiveInv s) (hk : k ≤ s.rx_len)
    (hd : drain k s = .ok (data, t)) : ReceiveInv t := by
  have hwf := drain_wf h.wf hd
  obtain ⟨-, -, hmoved, -, hbeyond, e⟩ := drain_ok hk hd
  have hbelow (a : Nat) (ha : (Memory.read t.RXB a).isSome = true) : a < s.params.RX_CAP := by
    by_cases hlt : a < s.rx_len
    · exact Nat.lt_of_lt_of_le hlt h.len_le
    · exact h.below a (hbeyond a (Nat.le_of_not_lt hlt) ▸ ha)
  have hcells (i : Nat) (hi : i < s.rx_len - k) : (Memory.read t.RXB i).isSome = true := by
    rw [hmoved i hi]
    exact h.cells (i + k) (by omega)
  rw [e]
  exact { h with wf := hwf, below := hbelow, cells := hcells, len_le := Nat.le_trans (Nat.sub_le _ _) h.len_le }

/-- A READ that returns bytes keeps the invariant. -/
theorem BlockInv.drain {s t : State} {k : Nat} {data : List Byte} (h : BlockInv s) (hs : s.sess = .configured)
    (hk : k ≤ s.rx_len) (hd : drain k s = .ok (data, t)) : BlockInv t := by
  obtain ⟨hset, htx, hrx⟩ := (blockInv_iff_of_configured hs).mp h
  have hrx' := hrx.drain hk hd
  obtain ⟨-, -, -, -, -, e⟩ := drain_ok hk hd
  refine (blockInv_iff_of_configured (by rw [e]; exact hs)).mpr ⟨?_, ?_, hrx'⟩
  · rw [e]; exact { hset with }
  · rw [e]; exact { htx with }

theorem BlockInv.exec_read {s t : State} {max : Half} (h : BlockInv s) (ht : exec (.read max) s = .next t) :
    BlockInv t := by
  obtain ⟨-, rfl⟩ | ⟨hs, ⟨-, rfl⟩ | ⟨-, -, rfl⟩ | ⟨-, -, data, u, hd, rfl⟩⟩ := exec_read_cases ht
  · exact h.respond _ _ _
  · exact h.respond _ _ _
  · exact h.respond _ _ _
  · exact (h.drain hs (Nat.min_le_right _ _) hd).respond _ _ _

/-- The body of TEARDOWN leaves a state of the invariant, since the buffers stand and every other field is reset
(R202). -/
theorem BuffersInv.endSession {s : State} (h : BuffersInv s) : BlockInv (endSession s) :=
  ⟨⟨h.legal, h.tx_wf, h.rx_wf, h.tx_below, h.rx_below⟩, resetFields_endSession s⟩

theorem BlockInv.exec_teardown {s t : State} (h : BlockInv s) (ht : exec .teardown s = .next t) : BlockInv t := by
  rw [exec_teardown_eq] at ht
  cases ht
  split
  · exact h.respond _ _ _
  · obtain ⟨hbuf, -⟩ := h
    exact hbuf.endSession.respond _ _ _

/-! ## Every step -/

theorem BlockInv.exec {i : Instr} {s t : State} (h : BlockInv s) (ht : exec i s = .next t) : BlockInv t := by
  cases i with
  | tick rx ftx frx => exact h.exec_tick ht
  | configure w1 w2 w3 w4 w5 w6 w7 => exact h.exec_configure ht
  | write n payload => exact h.exec_write ht
  | read max => exact h.exec_read ht
  | teardown => exact h.exec_teardown ht

/-- Settles O44: a step waits, which writes the response port alone, or runs an instruction, and each instruction keeps
the invariant. -/
theorem stepKeepsTheInvariant : Obligations.StepKeepsTheInvariant := by
  intro s t h ht
  obtain ⟨-, rfl⟩ | ⟨p, rest, i, -, -, hexec⟩ := step_cases ht
  · exact h.noResponse
  · exact (h.accept p rest).exec hexec

end Sys2Proof.Machine

/-! # Reset and the bounds of the invariant (O9, O43, O47) -/

namespace Sys2Proof.Machine

/-- Settles O9. -/
theorem resetLeavesTheSpecValues : Obligations.ResetLeavesTheSpecValues :=
  ⟨fun _ => by simp [State.resetWith], fun _ => rfl⟩

/-- Reset fixes every field of the block's record, and its buffers hold no cell. -/
theorem blockInv_resetWith {p : Config.Params} (hp : p.Legal) : BlockInv (State.resetWith p) := by
  obtain ⟨htx, hrx⟩ := reset_wf p
  exact ⟨⟨hp, htx, hrx, nofun, nofun⟩, rfl⟩

/-- Settles O43. -/
theorem resetMeetsTheInvariant : Obligations.ResetMeetsTheInvariant :=
  ⟨fun _ hp => blockInv_resetWith hp, blockInv_resetWith (by decide)⟩

/-- The bounds a session gives, by the legal capacities and the legal baud rates. -/
theorem SessionInv.bounds {s : State} (h : SessionInv s) (hlegal : s.params.Legal) :
    s.bit_period ≤ 1000000 ∧ s.tx_len ≤ 65535 ∧ s.tx_rd ≤ 65535 ∧ s.rx_len ≤ 65535 := by
  obtain ⟨⟨-, htx⟩, -, hrx⟩ := hlegal
  have := h.period_le
  have := h.tx_len_le
  have := h.rd_le
  have := h.rx_len_le
  omega

/-- Settles O47: an Unconfigured block holds reset values, a session has the bounds of its configuration, and only a
Configured one has armed timers, whose counts are at most the bit period. -/
theorem invariantBoundsStatedWidths : Obligations.InvariantBoundsStatedWidths := by
  rintro s ⟨hbuf, hby⟩
  cases hs : s.sess with
  | unconfigured =>
    have hreset : discardSession s = s := hby.of_unconfigured hs
    rw [← hreset]
    simp [discardSession, State.resetWith]
  | configured =>
    obtain ⟨hsess, heng⟩ := hby.of_configured hs
    obtain ⟨hP, htx, hrd, hrx⟩ := hsess.bounds hbuf.legal
    refine ⟨by omega, by omega, by omega, by omega, fun ha => ?_, fun ha => ?_⟩
    · have := heng.tx_cnt ha
      omega
    · have := heng.rx_cnt ha
      omega
  | faulted =>
    obtain ⟨hsess, hfro⟩ := hby.of_faulted hs
    obtain ⟨hP, htx, hrd, hrx⟩ := hsess.bounds hbuf.legal
    refine ⟨by omega, by omega, by omega, by omega, ?_, ?_⟩
    · simp [hfro.tx_off]
    · simp [hfro.rx_off]

end Sys2Proof.Machine

/-! # The transitions of the engines in their named states (O41, O42) -/

namespace Sys2Proof.Machine

/-- While Configured a tick without fault inputs completes, with the engines' writes (R110, R113). -/
theorem BlockInv.exec_quiet_tick {s : State} (h : BlockInv s) (hs : s.sess = .configured) (rx : Bool) :
    ∃ u, txTimerStep s (Machine.noResponse s) = .ok u ∧
      Machine.exec (.tick rx false false) s = .next (prevUpdate rx (edgeStep s rx (rxTimerStep s rx u))) := by
  have hexec := exec_tick_of_engines hs (schedFault_quiet s) rx
  cases hr : Machine.tickEngines rx s with
  | error f => exact absurd (hexec.trans (outcomeOf_eq_fault.mpr hr)) (h.exec_ne_fault _ f)
  | ok t =>
    obtain ⟨u, hu, rfl⟩ := tickEngines_eq_ok.mp hr
    exact ⟨u, hu, hexec.trans (outcomeOf_eq_next.mpr hr)⟩

/-- A bit index has at most one next, and the last has none. -/
theorem next_bit_unique {k j : Fin 8} (hj : j.val = k.val + 1) :
    k ≠ 7 ∧ ∀ k' j' : Fin 8, k = k' → j'.val = k'.val + 1 → j = j' := by
  refine ⟨by omega, ?_⟩
  rintro _ j' rfl hj'
  exact Fin.ext (hj.trans hj'.symm)

theorem no_bit_after_last (k j : Fin 8) (h : 7 = k) : ¬ j.val = k.val + 1 := by omega

/-! ## Transmit -/

theorem txPhase_of_not_busy {s : State} (hb : s.tx_busy = false) : txPhase s = .idle := by
  simp [txPhase, hb]

theorem txPhase_of_start {s : State} (hb : s.tx_busy = true) (hp : s.tx_pos = .start) :
    txPhase s = .armedForStart := by
  simp [txPhase, hb, hp]

theorem txPhase_of_data {s : State} {k : Fin 8} (hb : s.tx_busy = true) (hp : s.tx_pos = .data k) :
    txPhase s = .shiftingBit k := by
  simp [txPhase, hb, hp]

theorem txPhase_of_stop {s : State} (hb : s.tx_busy = true) (hp : s.tx_pos = .stop) : txPhase s = .stopBit := by
  simp [txPhase, hb, hp]

theorem RxFrame.txPhase {u t : State} (f : RxFrame u t) : txPhase t = txPhase u := by
  simp only [Machine.txPhase, f.tx_busy, f.tx_pos]

/-- A transmit timer step between the named states: none while the timer does not fire, and each row of R140's table when
it does. -/
theorem txTimerStep_phase {s u : State} (hba : s.tx_busy = s.tx_armed)
    (hu : txTimerStep s (noResponse s) = .ok u) :
    (txFires s = false ∧ txPhase u = txPhase s) ∨
    (txFires s = true ∧ txPhase s = .armedForStart ∧ txPhase u = .shiftingBit 0) ∨
    (txFires s = true ∧ ∃ k j : Fin 8, j.val = k.val + 1 ∧ txPhase s = .shiftingBit k ∧ txPhase u = .shiftingBit j) ∨
    (txFires s = true ∧ txPhase s = .shiftingBit 7 ∧ txPhase u = .stopBit) ∨
    (txFires s = true ∧ txPhase s = .stopBit ∧
      txPhase u = if s.tx_rd + 1 < s.tx_len then .armedForStart else .idle) := by
  have hbusy (ha : s.tx_armed = true) : s.tx_busy = true := hba.trans ha
  have hfires (ha : s.tx_armed = true) (hc : s.tx_cnt = 1) : txFires s = true := (txFires_eq_true s).mpr ⟨ha, hc⟩
  obtain ⟨ha, rfl⟩ | ⟨-, hc, rfl⟩ | ⟨ha, hc, hp, b, -, rfl⟩ | ⟨ha, hc, k, hp, rfl⟩ | ⟨ha, hc, hp, hr, rfl⟩ |
    ⟨ha, hc, hp, hr, rfl⟩ := txTimerStep_cases hu
  · exact .inl ⟨by simp [txFires, ha], rfl⟩
  · exact .inl ⟨by simp [txFires, hc], rfl⟩
  · exact .inr (.inl ⟨hfires ha hc, txPhase_of_start (hbusy ha) hp, txPhase_of_data (hbusy ha) rfl⟩)
  · have hk := txPhase_of_data (hbusy ha) hp
    by_cases h7 : k.val = 7
    · obtain rfl : k = 7 := Fin.ext h7
      exact .inr (.inr (.inr (.inl ⟨hfires ha hc, hk, txPhase_of_stop (hbusy ha) rfl⟩)))
    · have hj : k.val + 1 < 8 := by omega
      have hnext := nextTxPos_of_lt (k := k) (j := ⟨k.val + 1, hj⟩) rfl
      exact .inr (.inr (.inl ⟨hfires ha hc, k, ⟨k.val + 1, hj⟩, rfl, hk, txPhase_of_data (hbusy ha) hnext⟩))
  · refine .inr (.inr (.inr (.inr ⟨hfires ha hc, txPhase_of_stop (hbusy ha) hp, ?_⟩)))
    rw [if_pos hr]
    exact txPhase_of_start (hbusy ha) rfl
  · refine .inr (.inr (.inr (.inr ⟨hfires ha hc, txPhase_of_stop (hbusy ha) hp, ?_⟩)))
    rw [if_neg (Nat.not_lt.mpr hr)]
    exact txPhase_of_not_busy rfl

/-- Settles O41: the transmit state at the end of the tick is the one its timer step left. -/
theorem transmitEngineTransitions : Obligations.TransmitEngineTransitions := by
  intro rx s h hs
  obtain ⟨-, htx, -⟩ := (blockInv_iff_of_configured hs).mp h
  obtain ⟨u, hu, hexec⟩ := h.exec_quiet_tick hs rx
  refine ⟨_, hexec, ?_⟩
  rw [(receiveSteps_frame s rx u).txPhase]
  obtain ⟨hf, e⟩ | ⟨hf, hp, e⟩ | ⟨hf, k, j, hj, hp, e⟩ | ⟨hf, hp, e⟩ | ⟨hf, hp, e⟩ :=
    txTimerStep_phase htx.busy_armed hu
  · simp [hf, e]
  · simp [hf, hp, e]
  · obtain ⟨hk, hnext⟩ := next_bit_unique hj
    simpa [hf, hp, e, hk] using hnext
  · simpa [hf, hp, e] using no_bit_after_last
  · simp [hf, hp, e]

/-! ## Receive -/

theorem rxPhase_of_not_armed {s : State} (ha : s.rx_armed = false) : rxPhase s = .idle := by
  simp [rxPhase, ha]

theorem rxPhase_of_first {s : State} (ha : s.rx_armed = true) (hc : s.rx_count = 0) :
    rxPhase s = .armedForFirstBit := by
  simp [rxPhase, ha, hc]

theorem rxPhase_of_later {s : State} (ha : s.rx_armed = true) (hc : s.rx_count ≠ 0) :
    rxPhase s = .samplingBit s.rx_count := by
  simp [rxPhase, ha, hc]

theorem rxPhase_ne_idle {s : State} (ha : s.rx_armed = true) : rxPhase s ≠ .idle := by
  by_cases hc : s.rx_count = 0
  · simp [rxPhase_of_first ha hc]
  · simp [rxPhase_of_later ha hc]

/-- A receive timer step between the named states: none while the timer does not fire, and each row of R170's table but
the edge event when it does. -/
theorem rxTimerStep_phase {s u : State} (f : TxFrame (noResponse s) u) (x : Bool) :
    (s.rx_armed = false ∧ rxPhase (rxTimerStep s x u) = .idle) ∨
    (s.rx_armed = true ∧ rxFires s = false ∧ rxPhase (rxTimerStep s x u) = rxPhase s) ∨
    (s.rx_armed = true ∧ rxFires s = true ∧ rxPhase s = .armedForFirstBit ∧ rxPhase (rxTimerStep s x u) = .samplingBit 1) ∨
    (s.rx_armed = true ∧ rxFires s = true ∧ ∃ k j : Fin 8, j.val = k.val + 1 ∧ rxPhase s = .samplingBit k ∧
      rxPhase (rxTimerStep s x u) = .samplingBit j) ∨
    (s.rx_armed = true ∧ rxFires s = true ∧ rxPhase s = .samplingBit 7 ∧ rxPhase (rxTimerStep s x u) = .idle) := by
  have fires (ha : s.rx_armed = true) (hc : s.rx_cnt = 1) : rxFires s = true := (rxFires_eq_true s).mpr ⟨ha, hc⟩
  have last (ha : s.rx_armed = true) (h7 : s.rx_count.val = 7) : rxPhase s = .samplingBit 7 := by
    have hc : s.rx_count = 7 := Fin.ext h7
    have hne : s.rx_count ≠ 0 := by omega
    rw [rxPhase_of_later ha hne, hc]
  obtain ⟨ha, e⟩ | ⟨ha, h1, e⟩ | ⟨ha, h1, c, hc, e⟩ | ⟨ha, h1, h7, -, e⟩ | ⟨ha, h1, h7, -, e⟩ :=
    rxTimerStep_cases s x u <;> rw [e]
  · exact .inl ⟨ha, rxPhase_of_not_armed (f.rx_armed.trans ha)⟩
  · refine .inr (.inl ⟨ha, by simp [rxFires, h1], ?_⟩)
    simp only [rxPhase, f.rx_armed, f.rx_count, noResponse_rx_armed, noResponse_rx_count]
  · have hne : c ≠ 0 := by omega
    have hlater := rxPhase_of_later (s := { u with
      rx_acc := shiftIn s.rx_acc x, rx_count := c, rx_armed := true, rx_cnt := s.bit_period }) rfl hne
    by_cases h0 : s.rx_count = 0
    · obtain rfl : c = 1 := Fin.ext (by simpa [h0] using hc)
      exact .inr (.inr (.inl ⟨ha, fires ha h1, rxPhase_of_first ha h0, hlater⟩))
    · exact .inr (.inr (.inr (.inl ⟨ha, fires ha h1, s.rx_count, c, hc, rxPhase_of_later ha h0, hlater⟩)))
  · exact .inr (.inr (.inr (.inr ⟨ha, fires ha h1, last ha h7, rxPhase_of_not_armed rfl⟩)))
  · exact .inr (.inr (.inr (.inr ⟨ha, fires ha h1, last ha h7, rxPhase_of_not_armed rfl⟩)))

/-- The edge event enters ArmedForFirstBit; without it the edge step moves between no named states. -/
theorem edgeStep_rxPhase (s : State) (rx : Bool) (v : State) :
    rxPhase (edgeStep s rx v) = if edgeTaken s rx then .armedForFirstBit else rxPhase v := by
  obtain ⟨ht, e⟩ | ⟨ht, -, e⟩ | ⟨ht, -, e⟩ := edgeStep_cases s rx v <;> rw [e, ht] <;> rfl

/-- While a byte is being received no edge event runs (R50 item 8). -/
theorem ReceiveInv.edgeTaken_of_armed {s : State} (h : ReceiveInv s) (ha : s.rx_armed = true) (rx : Bool) :
    edgeTaken s rx = false := by
  simp [edgeTaken, h.edge, ha]

/-- Settles O42: the edge step acts on an idle engine alone, and the timer step on a running one. -/
theorem receiveEngineTransitions : Obligations.ReceiveEngineTransitions := by
  intro rx s h hs
  obtain ⟨-, -, hrx⟩ := (blockInv_iff_of_configured hs).mp h
  obtain ⟨u, hu, hexec⟩ := h.exec_quiet_tick hs rx
  refine ⟨_, hexec, ?_⟩
  have hphase : rxPhase (prevUpdate rx (edgeStep s rx (rxTimerStep s rx u))) =
      if edgeTaken s rx then .armedForFirstBit else rxPhase (rxTimerStep s rx u) := edgeStep_rxPhase s rx _
  rw [hphase]
  obtain ⟨ha, e⟩ | ⟨ha, hf, e⟩ | ⟨ha, hf, hp, e⟩ | ⟨ha, hf, k, j, hj, hp, e⟩ | ⟨ha, hf, hp, e⟩ :=
    rxTimerStep_phase (txTimerStep_frame hu) rx
  · simp [rxPhase_of_not_armed ha, e]
  all_goals have hne := hrx.edgeTaken_of_armed ha rx
  · simp [rxPhase_ne_idle ha, hf, hne, e]
  · simp [hf, hp, hne, e]
  · obtain ⟨hk, hnext⟩ := next_bit_unique hj
    simpa [hf, hp, hne, e, hk] using hnext
  · simpa [hf, hp, hne, e] using no_bit_after_last

end Sys2Proof.Machine

/-! # The writers of the session state and of the status flags (O49, O50, O51) -/

namespace Sys2Proof.Machine

/-! ## What the host commands write -/

/-- WRITE writes the response port and, where it appends, TXB, tx_len and, on an idle engine, START's fields (R133,
R134). -/
theorem exec_write_frame {n : Half} {payload : List Byte} {s t : State} (ht : exec (.write n payload) s = .next t) :
    ∃ m len r, t = { s with TXB := m, tx_len := len, rsp := r } ∨
      t = { s with
        TXB := m, tx_len := len, rsp := r
        tx_out := true, tx_pos := .start, tx_busy := true, tx_armed := true, tx_cnt := s.bit_period } := by
  obtain ⟨-, ⟨-, rfl⟩ | ⟨-, rfl⟩⟩ := exec_write_cases ht
  · exact ⟨_, _, _, .inl rfl⟩
  · obtain ⟨-, e⟩ | ⟨-, -, e⟩ | ⟨-, -, -, e⟩ | ⟨-, -, -, e⟩ := enqueue_cases n payload s <;> rw [e]
    · exact ⟨_, _, _, .inl rfl⟩
    · exact ⟨_, _, _, .inl rfl⟩
    · exact ⟨_, _, _, .inl rfl⟩
    · by_cases hb : s.tx_busy = true
      · rw [txAppend_busy payload hb]
        exact ⟨_, _, _, .inl rfl⟩
      · rw [txAppend_idle payload (eq_false_of_ne_true hb)]
        exact ⟨_, _, _, .inr rfl⟩

/-- READ writes the response port, RXB and rx_len (R198, R199). -/
theorem exec_read_frame {max : Half} {s t : State} (ht : exec (.read max) s = .next t) :
    ∃ m len r, t = { s with RXB := m, rx_len := len, rsp := r } := by
  obtain ⟨-, rfl⟩ | ⟨-, ⟨-, rfl⟩ | ⟨-, -, rfl⟩ | ⟨-, -, data, u, hd, rfl⟩⟩ := exec_read_cases ht
  · exact ⟨_, _, _, rfl⟩
  · exact ⟨_, _, _, rfl⟩
  · exact ⟨_, _, _, rfl⟩
  · obtain ⟨-, -, -, -, -, e⟩ := drain_ok (Nat.min_le_right _ _) hd
    rw [e]
    exact ⟨_, _, _, rfl⟩

/-! ## sess and sched_fault_seen -/

/-- An instruction leaves sess and sched_fault_seen, or is one of sess's three writers (R21), of which the fault entry
alone writes sched_fault_seen (R48). -/
theorem exec_sess_cases {i : Instr} {s t : State} (ht : exec i s = .next t) :
    (t.sess = s.sess ∧ t.sched_fault_seen = s.sched_fault_seen) ∨
    (s.sess = .unconfigured ∧ t.sess = .configured ∧ t.sched_fault_seen = s.sched_fault_seen ∧
      ∃ w1 w2 w3 w4 w5 w6 w7, i = .configure w1 w2 w3 w4 w5 w6 w7) ∨
    (t.sess = .unconfigured ∧ t.sched_fault_seen = s.sched_fault_seen ∧ i = .teardown) ∨
    (s.sess = .configured ∧ t.sess = .faulted ∧ t.sched_fault_seen = true ∧
      ∃ rx ftx frx, i = .tick rx ftx frx ∧ schedFault s ftx frx = true) := by
  cases i with
  | tick rx ftx frx =>
    obtain ⟨-, rfl⟩ | ⟨hs, hf, rfl⟩ | ⟨-, -, u, hu, rfl⟩ := exec_tick_cases ht
    · exact .inl ⟨rfl, rfl⟩
    · exact .inr (.inr (.inr ⟨hs, rfl, rfl, rx, ftx, frx, rfl, hf⟩))
    · have f := txTimerStep_frame hu
      have g := receiveSteps_frame s rx u
      exact .inl ⟨g.sess.trans f.sess, g.sched_fault_seen.trans f.sched_fault_seen⟩
  | configure w1 w2 w3 w4 w5 w6 w7 =>
    obtain ⟨hs, rfl | rfl | ⟨-, -, p, -, rfl⟩⟩ := exec_configure_cases ht
    · exact .inl ⟨rfl, rfl⟩
    · exact .inl ⟨rfl, rfl⟩
    · exact .inr (.inl ⟨hs, rfl, rfl, w1, w2, w3, w4, w5, w6, w7, rfl⟩)
  | write n payload =>
    obtain ⟨m, len, r, rfl | rfl⟩ := exec_write_frame ht
    · exact .inl ⟨rfl, rfl⟩
    · exact .inl ⟨rfl, rfl⟩
  | read max =>
    obtain ⟨m, len, r, rfl⟩ := exec_read_frame ht
    exact .inl ⟨rfl, rfl⟩
  | teardown =>
    rw [exec_teardown_eq] at ht
    cases ht
    split
    · exact .inl ⟨rfl, rfl⟩
    · exact .inr (.inr (.inl ⟨rfl, rfl, rfl⟩))

/-- Settles O49. -/
theorem sessionStateHasThreeWriters : Obligations.SessionStateHasThreeWriters := by
  intro i s t ht hne
  obtain ⟨e, -⟩ | ⟨hs, hts, -, hi⟩ | ⟨hts, -, hi⟩ | ⟨hs, hts, -, hi⟩ := exec_sess_cases ht
  · exact absurd e hne
  · exact .inl ⟨hs, hts, hi⟩
  · exact .inr (.inl ⟨hts, hi⟩)
  · exact .inr (.inr ⟨hs, hts, hi⟩)

/-- Settles O50: a step that does not wait runs an instruction, and each case of `exec_sess_cases` leaves
sched_fault_seen or is the fault entry. -/
theorem schedFaultSeenIsSticky : Obligations.SchedFaultSeenIsSticky := by
  refine ⟨fun s t ht => ?_, fun _ => rfl⟩
  obtain ⟨-, rfl⟩ | ⟨p, rest, i, -, -, hexec⟩ := step_cases ht
  · simp +contextual
  · obtain ⟨hts, e⟩ | ⟨-, hts, e, -⟩ | ⟨hts, e, -⟩ | ⟨hs, hts, e, -⟩ := exec_sess_cases hexec <;>
      simp only [accept_sess, accept_sched_fault_seen] at *
    · simp +contextual [hts, e]
    · simp +contextual [hts, e]
    · simp +contextual [hts, e]
    · simp [hs, hts, e]

/-! ## The other status flags

Each rule below says how an instruction leaves a flag; `FlagWrites` turns it into the row of R52's table. -/

/-- A flag that goes from `b` to `b'` is set only under `set` and cleared only under `clear`. -/
def FlagWrites (b b' : Bool) (set clear : Prop) : Prop :=
  (b = false → b' = true → set) ∧ (b = true → b' = false → clear)

theorem FlagWrites.same {b b' : Bool} {set clear : Prop} (h : b' = b) : FlagWrites b b' set clear := by
  subst h
  exact ⟨fun h0 h1 => absurd (h0.symm.trans h1) nofun, fun h1 h0 => absurd (h0.symm.trans h1) nofun⟩

theorem FlagWrites.set {b b' : Bool} {set clear : Prop} (h : b' = true) (hset : set) : FlagWrites b b' set clear :=
  ⟨fun _ _ => hset, fun _ h0 => absurd (h0.symm.trans h) nofun⟩

theorem FlagWrites.clear {b b' : Bool} {set clear : Prop} (h : b' = false) (hclear : clear) :
    FlagWrites b b' set clear :=
  ⟨fun _ h1 => absurd (h.symm.trans h1) nofun, fun _ _ => hclear⟩

/-- The status flags of an Unconfigured block but sched_fault_seen (R51). -/
structure FlagsOff (s : State) : Prop where
  tx_busy : s.tx_busy = false
  edge_en : s.edge_en = false
  edge_pending : s.edge_pending = false
  tx_armed : s.tx_armed = false
  rx_armed : s.rx_armed = false
  rx_prev_valid : s.rx_prev_valid = false

theorem BlockInv.flagsOff {s : State} (h : BlockInv s) (hs : s.sess = .unconfigured) : FlagsOff s := by
  obtain ⟨-, hby⟩ := h
  have hreset : discardSession s = s := hby.of_unconfigured hs
  rw [← hreset]
  constructor <;> rfl

theorem exec_teardown_sess {s t : State} (ht : exec .teardown s = .next t) : t.sess = .unconfigured := by
  rw [exec_teardown_eq] at ht
  cases ht
  split
  · assumption
  · rfl

/-- TEARDOWN leaves every flag but sched_fault_seen off (R202, R203). -/
theorem BlockInv.exec_teardown_flags {s t : State} (h : BlockInv s) (ht : Machine.exec .teardown s = .next t) :
    FlagsOff t :=
  (h.exec_teardown ht).flagsOff (exec_teardown_sess ht)

/-- What CONFIGURE, WRITE and READ do to the flags: a new session has edge delivery on, and START makes the transmit
engine busy (R134, R193). -/
structure FlagsByHost (i : Instr) (s t : State) : Prop where
  transmit : (t.tx_busy = s.tx_busy ∧ t.tx_armed = s.tx_armed) ∨
    (t.tx_busy = true ∧ t.tx_armed = true ∧ ∃ n payload, i = .write n payload)
  edge_en : t.edge_en = s.edge_en ∨
    (t.edge_en = true ∧ ∃ w1 w2 w3 w4 w5 w6 w7, i = .configure w1 w2 w3 w4 w5 w6 w7)
  edge_pending : t.edge_pending = s.edge_pending
  rx_armed : t.rx_armed = s.rx_armed
  rx_prev_valid : t.rx_prev_valid = s.rx_prev_valid

/-- CONFIGURE clears no flag, since those it would clear are off while Unconfigured (R51, R193). -/
theorem BlockInv.exec_configure_flags {w1 w2 w3 w4 w5 w6 w7 : Word} {s t : State} (h : BlockInv s)
    (ht : Machine.exec (.configure w1 w2 w3 w4 w5 w6 w7) s = .next t) :
    FlagsByHost (.configure w1 w2 w3 w4 w5 w6 w7) s t := by
  obtain ⟨hs, rfl | rfl | ⟨-, -, p, -, rfl⟩⟩ := exec_configure_cases ht
  · exact ⟨.inl ⟨rfl, rfl⟩, .inl rfl, rfl, rfl, rfl⟩
  · exact ⟨.inl ⟨rfl, rfl⟩, .inl rfl, rfl, rfl, rfl⟩
  · have off := h.flagsOff hs
    exact ⟨.inl ⟨off.tx_busy.symm, off.tx_armed.symm⟩, .inr ⟨rfl, w1, w2, w3, w4, w5, w6, w7, rfl⟩,
      off.edge_pending.symm, off.rx_armed.symm, off.rx_prev_valid.symm⟩

/-- An instruction is a TICK, a TEARDOWN, which leaves the flags off, or another host command. -/
theorem BlockInv.exec_flags_cases {i : Instr} {s t : State} (h : BlockInv s) (ht : Machine.exec i s = .next t) :
    (∃ rx ftx frx, i = .tick rx ftx frx) ∨ (i = .teardown ∧ FlagsOff t) ∨ FlagsByHost i s t := by
  cases i with
  | tick rx ftx frx => exact .inl ⟨rx, ftx, frx, rfl⟩
  | configure w1 w2 w3 w4 w5 w6 w7 => exact .inr (.inr (h.exec_configure_flags ht))
  | write n payload =>
    obtain ⟨m, len, r, rfl | rfl⟩ := exec_write_frame ht
    · exact .inr (.inr ⟨.inl ⟨rfl, rfl⟩, .inl rfl, rfl, rfl, rfl⟩)
    · exact .inr (.inr ⟨.inr ⟨rfl, rfl, n, payload, rfl⟩, .inl rfl, rfl, rfl, rfl⟩)
  | read max =>
    obtain ⟨m, len, r, rfl⟩ := exec_read_frame ht
    exact .inr (.inr ⟨.inl ⟨rfl, rfl⟩, .inl rfl, rfl, rfl, rfl⟩)
  | teardown => exact .inr (.inl ⟨rfl, h.exec_teardown_flags ht⟩)

/-- A TICK leaves tx_busy and tx_armed, or ends the run, or is taken by the fault entry, which cancels the timer (R52,
R137, R240). -/
theorem exec_tick_transmit_flags {rx ftx frx : Bool} {s t : State} (ht : exec (.tick rx ftx frx) s = .next t) :
    (t.tx_busy = s.tx_busy ∧ t.tx_armed = s.tx_armed) ∨
    (schedFault s ftx frx = true ∧ t.tx_busy = s.tx_busy ∧ t.tx_armed = false) ∨
    ((txFires s = true ∧ s.tx_pos = .stop) ∧ t.tx_busy = false ∧ t.tx_armed = false) := by
  obtain ⟨-, rfl⟩ | ⟨-, hf, rfl⟩ | ⟨-, -, u, hu, rfl⟩ := exec_tick_cases ht
  · exact .inl ⟨rfl, rfl⟩
  · exact .inr (.inl ⟨hf, rfl, rfl⟩)
  · have g := receiveSteps_frame s rx u
    rw [g.tx_busy, g.tx_armed]
    obtain ⟨-, rfl⟩ | ⟨-, -, rfl⟩ | ⟨ha, -, -, b, -, rfl⟩ | ⟨ha, -, k, -, rfl⟩ | ⟨ha, -, -, -, rfl⟩ | ⟨ha, hc, hp, -, rfl⟩ :=
      txTimerStep_cases hu
    · exact .inl ⟨rfl, rfl⟩
    · exact .inl ⟨rfl, rfl⟩
    · exact .inl ⟨rfl, ha.symm⟩
    · exact .inl ⟨rfl, ha.symm⟩
    · exact .inl ⟨rfl, ha.symm⟩
    · exact .inr (.inr ⟨⟨(txFires_eq_true s).mpr ⟨ha, hc⟩, hp⟩, rfl, rfl⟩)

/-- A receive timer step leaves edge_en and rx_armed or takes the eighth sample; it never writes edge_pending. -/
theorem rxTimerStep_flags {s u : State} (f : TxFrame (noResponse s) u) (x : Bool) :
    (rxTimerStep s x u).edge_pending = s.edge_pending ∧
    (((rxTimerStep s x u).edge_en = s.edge_en ∧ (rxTimerStep s x u).rx_armed = s.rx_armed) ∨
     ((rxFires s = true ∧ s.rx_count = 7) ∧
       (rxTimerStep s x u).edge_en = true ∧ (rxTimerStep s x u).rx_armed = false)) := by
  have eighth (ha : s.rx_armed = true) (h1 : s.rx_cnt = 1) (h7 : s.rx_count.val = 7) :
      rxFires s = true ∧ s.rx_count = 7 := ⟨(rxFires_eq_true s).mpr ⟨ha, h1⟩, Fin.ext h7⟩
  obtain ⟨-, e⟩ | ⟨-, -, e⟩ | ⟨ha, -, c, -, e⟩ | ⟨ha, h1, h7, -, e⟩ | ⟨ha, h1, h7, -, e⟩ := rxTimerStep_cases s x u <;>
    rw [e]
  · exact ⟨f.edge_pending, .inl ⟨f.edge_en, f.rx_armed⟩⟩
  · exact ⟨f.edge_pending, .inl ⟨f.edge_en, f.rx_armed⟩⟩
  · exact ⟨f.edge_pending, .inl ⟨f.edge_en, ha.symm⟩⟩
  · exact ⟨f.edge_pending, .inr ⟨eighth ha h1 h7, rfl, rfl⟩⟩
  · exact ⟨f.edge_pending, .inr ⟨eighth ha h1 h7, rfl, rfl⟩⟩

/-- A TICK leaves edge_en and rx_armed, or one of their three writers in it runs: the fault entry, the edge event, the
eighth sample (R52). -/
theorem exec_tick_receive_flags {rx ftx frx : Bool} {s t : State} (ht : exec (.tick rx ftx frx) s = .next t) :
    (t.edge_en = s.edge_en ∧ t.rx_armed = s.rx_armed) ∨
    (schedFault s ftx frx = true ∧ t.edge_en = false ∧ t.rx_armed = false) ∨
    (edgeTaken s rx = true ∧ t.edge_en = false ∧ t.rx_armed = true) ∨
    ((rxFires s = true ∧ s.rx_count = 7) ∧ t.edge_en = true ∧ t.rx_armed = false) := by
  obtain ⟨-, rfl⟩ | ⟨-, hf, rfl⟩ | ⟨-, -, u, hu, rfl⟩ := exec_tick_cases ht
  · exact .inl ⟨rfl, rfl⟩
  · exact .inr (.inl ⟨hf, rfl, rfl⟩)
  · obtain ⟨-, hflags⟩ := rxTimerStep_flags (txTimerStep_frame hu) rx
    rw [prevUpdate_edge_en, prevUpdate_rx_armed]
    obtain ⟨hte, e⟩ | ⟨-, -, e⟩ | ⟨-, -, e⟩ := edgeStep_cases s rx (rxTimerStep s rx u) <;> rw [e]
    · exact .inr (.inr (.inl ⟨hte, rfl, rfl⟩))
    · exact hflags.imp_right fun h => .inr (.inr h)
    · exact hflags.imp_right fun h => .inr (.inr h)

/-- A TICK leaves edge_pending, or keeps a masked edge, or an edge event or the fault entry clears it (R52, R240). -/
theorem exec_tick_edge_pending {rx ftx frx : Bool} {s t : State} (ht : exec (.tick rx ftx frx) s = .next t) :
    t.edge_pending = s.edge_pending ∨ (edgeLatched s rx = true ∧ t.edge_pending = true) ∨
    ((edgeTaken s rx = true ∨ schedFault s ftx frx = true) ∧ t.edge_pending = false) := by
  obtain ⟨-, rfl⟩ | ⟨-, hf, rfl⟩ | ⟨-, -, u, hu, rfl⟩ := exec_tick_cases ht
  · exact .inl rfl
  · exact .inr (.inr ⟨.inr hf, rfl⟩)
  · obtain ⟨hpending, -⟩ := rxTimerStep_flags (txTimerStep_frame hu) rx
    rw [prevUpdate_edge_pending]
    obtain ⟨hte, e⟩ | ⟨-, hl, e⟩ | ⟨-, -, e⟩ := edgeStep_cases s rx (rxTimerStep s rx u) <;> rw [e]
    · exact .inr (.inr ⟨.inl hte, rfl⟩)
    · exact .inr (.inl ⟨hl, rfl⟩)
    · exact .inl hpending

/-- A TICK leaves rx_prev_valid or, while Configured, sets it (R167). -/
theorem exec_tick_rx_prev_valid {rx ftx frx : Bool} {s t : State} (ht : exec (.tick rx ftx frx) s = .next t) :
    t.rx_prev_valid = s.rx_prev_valid ∨ (s.sess = .configured ∧ t.rx_prev_valid = true) := by
  obtain ⟨-, rfl⟩ | ⟨-, -, rfl⟩ | ⟨hs, -, u, -, rfl⟩ := exec_tick_cases ht
  · exact .inl rfl
  · exact .inl rfl
  · exact .inr ⟨hs, rfl⟩

/-! ## The rows of R52's table -/

section

variable {i : Instr} {s t : State}

theorem tx_busy_writers (h : BlockInv s) (ht : exec i s = .next t) :
    FlagWrites s.tx_busy t.tx_busy (∃ n payload, i = .write n payload)
      (i = .teardown ∨ (txFires s = true ∧ s.tx_pos = .stop ∧ ∃ rx ftx frx, i = .tick rx ftx frx)) := by
  obtain ⟨rx, ftx, frx, rfl⟩ | ⟨rfl, off⟩ | host := h.exec_flags_cases ht
  · obtain ⟨e, -⟩ | ⟨-, e, -⟩ | ⟨⟨hf, hp⟩, e, -⟩ := exec_tick_transmit_flags ht
    · exact .same e
    · exact .same e
    · exact .clear e (.inr ⟨hf, hp, rx, ftx, frx, rfl⟩)
  · exact .clear off.tx_busy (.inl rfl)
  · obtain ⟨e, -⟩ | ⟨e, -, hi⟩ := host.transmit
    · exact .same e
    · exact .set e hi

theorem tx_armed_writers (h : BlockInv s) (ht : exec i s = .next t) :
    FlagWrites s.tx_armed t.tx_armed (∃ n payload, i = .write n payload)
      (i = .teardown ∨ ∃ rx ftx frx, i = .tick rx ftx frx ∧
        ((txFires s = true ∧ s.tx_pos = .stop) ∨ schedFault s ftx frx = true)) := by
  obtain ⟨rx, ftx, frx, rfl⟩ | ⟨rfl, off⟩ | host := h.exec_flags_cases ht
  · obtain ⟨-, e⟩ | ⟨hf, -, e⟩ | ⟨hend, -, e⟩ := exec_tick_transmit_flags ht
    · exact .same e
    · exact .clear e (.inr ⟨rx, ftx, frx, rfl, .inr hf⟩)
    · exact .clear e (.inr ⟨rx, ftx, frx, rfl, .inl hend⟩)
  · exact .clear off.tx_armed (.inl rfl)
  · obtain ⟨-, e⟩ | ⟨-, e, hi⟩ := host.transmit
    · exact .same e
    · exact .set e hi

theorem edge_en_writers (h : BlockInv s) (ht : exec i s = .next t) :
    FlagWrites s.edge_en t.edge_en
      ((∃ w1 w2 w3 w4 w5 w6 w7, i = .configure w1 w2 w3 w4 w5 w6 w7) ∨
        (rxFires s = true ∧ s.rx_count = 7 ∧ ∃ rx ftx frx, i = .tick rx ftx frx))
      (i = .teardown ∨ ∃ rx ftx frx, i = .tick rx ftx frx ∧ (edgeTaken s rx = true ∨ schedFault s ftx frx = true)) := by
  obtain ⟨rx, ftx, frx, rfl⟩ | ⟨rfl, off⟩ | host := h.exec_flags_cases ht
  · obtain ⟨e, -⟩ | ⟨hf, e, -⟩ | ⟨hte, e, -⟩ | ⟨⟨hf, h7⟩, e, -⟩ := exec_tick_receive_flags ht
    · exact .same e
    · exact .clear e (.inr ⟨rx, ftx, frx, rfl, .inr hf⟩)
    · exact .clear e (.inr ⟨rx, ftx, frx, rfl, .inl hte⟩)
    · exact .set e (.inr ⟨hf, h7, rx, ftx, frx, rfl⟩)
  · exact .clear off.edge_en (.inl rfl)
  · obtain e | ⟨e, hi⟩ := host.edge_en
    · exact .same e
    · exact .set e (.inl hi)

theorem edge_pending_writers (h : BlockInv s) (ht : exec i s = .next t) :
    FlagWrites s.edge_pending t.edge_pending (∃ rx ftx frx, i = .tick rx ftx frx ∧ edgeLatched s rx = true)
      (i = .teardown ∨ ∃ rx ftx frx, i = .tick rx ftx frx ∧ (edgeTaken s rx = true ∨ schedFault s ftx frx = true)) := by
  obtain ⟨rx, ftx, frx, rfl⟩ | ⟨rfl, off⟩ | host := h.exec_flags_cases ht
  · obtain e | ⟨hl, e⟩ | ⟨hclear, e⟩ := exec_tick_edge_pending ht
    · exact .same e
    · exact .set e ⟨rx, ftx, frx, rfl, hl⟩
    · exact .clear e (.inr ⟨rx, ftx, frx, rfl, hclear⟩)
  · exact .clear off.edge_pending (.inl rfl)
  · exact .same host.edge_pending

theorem rx_armed_writers (h : BlockInv s) (ht : exec i s = .next t) :
    FlagWrites s.rx_armed t.rx_armed (∃ rx ftx frx, i = .tick rx ftx frx ∧ edgeTaken s rx = true)
      (i = .teardown ∨ ∃ rx ftx frx, i = .tick rx ftx frx ∧
        ((rxFires s = true ∧ s.rx_count = 7) ∨ schedFault s ftx frx = true)) := by
  obtain ⟨rx, ftx, frx, rfl⟩ | ⟨rfl, off⟩ | host := h.exec_flags_cases ht
  · obtain ⟨-, e⟩ | ⟨hf, -, e⟩ | ⟨hte, -, e⟩ | ⟨heighth, -, e⟩ := exec_tick_receive_flags ht
    · exact .same e
    · exact .clear e (.inr ⟨rx, ftx, frx, rfl, .inr hf⟩)
    · exact .set e ⟨rx, ftx, frx, rfl, hte⟩
    · exact .clear e (.inr ⟨rx, ftx, frx, rfl, .inl heighth⟩)
  · exact .clear off.rx_armed (.inl rfl)
  · exact .same host.rx_armed

theorem rx_prev_valid_writers (h : BlockInv s) (ht : exec i s = .next t) :
    FlagWrites s.rx_prev_valid t.rx_prev_valid (s.sess = .configured ∧ ∃ rx ftx frx, i = .tick rx ftx frx)
      (i = .teardown) := by
  obtain ⟨rx, ftx, frx, rfl⟩ | ⟨rfl, off⟩ | host := h.exec_flags_cases ht
  · obtain e | ⟨hs, e⟩ := exec_tick_rx_prev_valid ht
    · exact .same e
    · exact .set e ⟨hs, rx, ftx, frx, rfl⟩
  · exact .clear off.rx_prev_valid rfl
  · exact .same host.rx_prev_valid

theorem sched_fault_seen_writers (ht : exec i s = .next t) :
    FlagWrites s.sched_fault_seen t.sched_fault_seen
      (s.sess = .configured ∧ ∃ rx ftx frx, i = .tick rx ftx frx ∧ schedFault s ftx frx = true) False := by
  obtain ⟨-, e⟩ | ⟨-, -, e, -⟩ | ⟨-, e, -⟩ | ⟨hs, -, e, hi⟩ := exec_sess_cases ht
  · exact .same e
  · exact .same e
  · exact .same e
  · exact .set e ⟨hs, hi⟩

end

/-- Settles O51, from the rows of R52's table. -/
theorem statusFlagsChangeOnlyByTheirWriters : Obligations.StatusFlagsChangeOnlyByTheirWriters := by
  intro i s t h ht
  obtain ⟨busySet, busyClear⟩ := tx_busy_writers h ht
  obtain ⟨edgeSet, edgeClear⟩ := edge_en_writers h ht
  obtain ⟨pendingSet, pendingClear⟩ := edge_pending_writers h ht
  obtain ⟨txSet, txClear⟩ := tx_armed_writers h ht
  obtain ⟨rxSet, rxClear⟩ := rx_armed_writers h ht
  obtain ⟨validSet, validClear⟩ := rx_prev_valid_writers h ht
  obtain ⟨seenSet, seenClear⟩ := sched_fault_seen_writers ht
  exact ⟨busySet, busyClear, edgeSet, edgeClear, pendingSet, pendingClear, txSet, txClear, rxSet, rxClear, validSet,
    validClear, fun hseen => eq_true_of_ne_false (seenClear hseen), seenSet⟩

end Sys2Proof.Machine

/-! # TICK and the buffers (O38, O46, O56) -/

namespace Sys2Proof.Machine

/-! ## Where the machine stops (O46) -/

/-- Settles O46: only TICK and READ load a cell. -/
theorem faultsExactlyOnCellsWithoutContents : Obligations.FaultsExactlyOnCellsWithoutContents := by
  intro i s
  cases i with
  | tick rx ftx frx =>
    rw [exec_tick_fault_iff]
    constructor
    · rintro ⟨hs, h⟩
      exact ⟨hs, .inl ⟨rx, ftx, frx, rfl, h⟩⟩
    · rintro ⟨hs, ⟨_, _, _, hi, h⟩ | ⟨_, hi, _⟩⟩
      · cases hi
        exact ⟨hs, h⟩
      · cases hi
  | configure w1 w2 w3 w4 w5 w6 w7 => simp [exec_configure_ne_fault]
  | write n payload => simp [exec_write_ne_fault]
  | read max =>
    rw [exec_read_fault_iff]
    constructor
    · rintro ⟨hs, h⟩
      exact ⟨hs, .inr ⟨max, rfl, h⟩⟩
    · rintro ⟨hs, ⟨_, _, _, hi, _⟩ | ⟨_, hi, h⟩⟩
      · cases hi
      · cases hi
        exact ⟨hs, h⟩
  | teardown => simp [exec_teardown_ne_fault]

/-! ## The frame of TICK (O38) -/

/-- What no TICK writes: the ports, the configuration, the output enable and TXB (R110). -/
theorem exec_tick_fixed {rx ftx frx : Bool} {s t : State} (ht : exec (.tick rx ftx frx) s = .next t) :
    SamePorts s t ∧ t.cfg_tx_pin = s.cfg_tx_pin ∧ t.cfg_rx_pin = s.cfg_rx_pin ∧ t.cfg_baud = s.cfg_baud ∧
    t.bit_period = s.bit_period ∧ t.tx_oe = s.tx_oe ∧ t.TXB = s.TXB := by
  obtain ⟨-, rfl⟩ | ⟨-, -, rfl⟩ | ⟨-, -, u, hu, rfl⟩ := exec_tick_cases ht
  · simp [SamePorts]
  · simp [SamePorts]
  · have f := txTimerStep_frame hu
    have g := receiveSteps_frame s rx u
    exact ⟨⟨g.params.trans f.params, g.input.trans f.input, g.acq_ok.trans f.acq_ok, g.xfer_ok.trans f.xfer_ok⟩,
      g.cfg_tx_pin.trans f.cfg_tx_pin, g.cfg_rx_pin.trans f.cfg_rx_pin, g.cfg_baud.trans f.cfg_baud,
      g.bit_period.trans f.bit_period, g.tx_oe.trans f.tx_oe, g.TXB.trans f.TXB⟩

/-- A receive timer step leaves RXB and its length, or appends the byte of an eighth sample (R165). -/
theorem rxTimerStep_buffer {s u : State} (f : TxFrame (noResponse s) u) (x : Bool) :
    ((rxTimerStep s x u).RXB = s.RXB ∧ (rxTimerStep s x u).rx_len = s.rx_len) ∨
    ((s.rx_armed = true ∧ s.rx_cnt = 1 ∧ s.rx_count = 7) ∧ s.rx_len < s.params.RX_CAP ∧
      (rxTimerStep s x u).RXB = Memory.write s.RXB s.rx_len (shiftIn s.rx_acc x) ∧
      (rxTimerStep s x u).rx_len = s.rx_len + 1) := by
  obtain ⟨-, e⟩ | ⟨-, -, e⟩ | ⟨-, -, c, -, e⟩ | ⟨ha, h1, h7, hroom, e⟩ | ⟨-, -, -, -, e⟩ := rxTimerStep_cases s x u <;>
    rw [e]
  · exact .inl ⟨f.RXB, f.rx_len⟩
  · exact .inl ⟨f.RXB, f.rx_len⟩
  · exact .inl ⟨f.RXB, f.rx_len⟩
  · exact .inr ⟨⟨ha, h1, Fin.ext h7⟩, hroom, rfl, rfl⟩
  · exact .inl ⟨f.RXB, f.rx_len⟩

/-- The edge step writes no cell of RXB and not its length (R161, R162). -/
theorem edgeStep_buffer (s : State) (rx : Bool) (v : State) :
    (edgeStep s rx v).RXB = v.RXB ∧ (edgeStep s rx v).rx_len = v.rx_len := by
  obtain ⟨-, e⟩ | ⟨-, -, e⟩ | ⟨-, -, e⟩ := edgeStep_cases s rx v <;> rw [e] <;> exact ⟨rfl, rfl⟩

/-- A TICK leaves RXB and its length, or appends the byte of an eighth sample (R62, R165). -/
theorem exec_tick_buffer {rx ftx frx : Bool} {s t : State} (ht : exec (.tick rx ftx frx) s = .next t) :
    (t.RXB = s.RXB ∧ t.rx_len = s.rx_len) ∨
    ((s.rx_armed = true ∧ s.rx_cnt = 1 ∧ s.rx_count = 7) ∧ s.rx_len < s.params.RX_CAP ∧
      t.RXB = Memory.write s.RXB s.rx_len (shiftIn s.rx_acc rx) ∧ t.rx_len = s.rx_len + 1) := by
  obtain ⟨-, rfl⟩ | ⟨-, -, rfl⟩ | ⟨-, -, u, hu, rfl⟩ := exec_tick_cases ht
  · exact .inl ⟨rfl, rfl⟩
  · exact .inl ⟨rfl, rfl⟩
  · obtain ⟨hcells, hlen⟩ := edgeStep_buffer s rx (rxTimerStep s rx u)
    rw [prevUpdate_RXB, prevUpdate_rx_len, hcells, hlen]
    exact rxTimerStep_buffer (txTimerStep_frame hu) rx

/-- A TICK leaves sess and sched_fault_seen or is taken by the fault entry (R112, R240). -/
theorem exec_tick_sess {rx ftx frx : Bool} {s t : State} (ht : exec (.tick rx ftx frx) s = .next t) :
    (t.sess = s.sess ∧ t.sched_fault_seen = s.sched_fault_seen) ∨
    (s.sess = .configured ∧ t.sess = .faulted ∧ t.sched_fault_seen = true) := by
  obtain h | ⟨-, -, -, _, _, _, _, _, _, _, hi⟩ | ⟨-, -, hi⟩ | ⟨hs, hts, hseen, -⟩ := exec_sess_cases ht
  · exact .inl h
  · cases hi
  · cases hi
  · exact .inr ⟨hs, hts, hseen⟩

/-- Settles O38: a TICK writes sess in the fault entry alone, and RXB and rx_len in a commit alone. -/
theorem tickFrame : Obligations.TickFrame := by
  intro rx ftx frx s t ht
  obtain ⟨hports, htx, hrx, hbaud, hperiod, hoe, hTXB⟩ := exec_tick_fixed ht
  refine ⟨hports, htx, hrx, hbaud, hperiod, hoe, fun a => by rw [hTXB], ?_, ?_, ?_, ?_⟩
  · intro hne
    exact (exec_tick_sess ht).resolve_left fun ⟨e, _⟩ => hne e
  · intro hsame
    obtain ⟨-, e⟩ | ⟨hs, hts, -⟩ := exec_tick_sess ht
    · exact e
    · rw [hs, hts] at hsame
      cases hsame
  · intro a hne
    obtain ⟨e, -⟩ | ⟨heighth, hroom, e, -⟩ := exec_tick_buffer ht
    · rw [e] at hne
      exact absurd rfl hne
    · rw [e] at hne
      exact ⟨Classical.byContradiction fun ha => hne (read_write_other _ _ ha), hroom, heighth⟩
  · intro hne
    obtain ⟨-, e⟩ | ⟨heighth, -, -, e⟩ := exec_tick_buffer ht
    · exact absurd e hne
    · exact ⟨e, heighth⟩

/-! ## The frame timeline (O56)

A run is followed by the number `q` of its callbacks so far, of which ten make a frame: the next one is that of byte
`q / 10` at the position with code `q % 10` (R31), and it comes in tick `P * (q + 1)`. -/

section

variable {s : State}

/-- Up to the first callback the line is high (R139). -/
theorem frameLevel_idle {d : Nat} (hd : d / s.bit_period = 0) : frameLevel s d = true := by
  simp [frameLevel, hd]

/-- The level of a start bit. -/
theorem frameLevel_start {d q : Nat} (hd : d / s.bit_period = q + 1) (hq : q % 10 = 0) : frameLevel s d = false := by
  simp [frameLevel, hd, hq]

/-- The level of data bit k. -/
theorem frameLevel_data {d q k : Nat} {b : Byte} (hd : d / s.bit_period = q + 1) (hq : q % 10 = k + 1) (hk : k < 8)
    (hb : Memory.read s.TXB (q / 10) = some b) : frameLevel s d = b.getLsbD k := by
  have : k ≠ 8 := by omega
  simp [frameLevel, hd, hq, hb, this]

/-- The level of a stop bit. -/
theorem frameLevel_stop {d q : Nat} (hd : d / s.bit_period = q + 1) (hq : q % 10 = 9) : frameLevel s d = true := by
  simp [frameLevel, hd, hq]

end

theorem txPosCode_data (k : Fin 8) : (txPosCode (.data k)).toNat = k.val + 1 := by
  revert k; decide

theorem txPosCode_nextTxPos (k : Fin 8) : (txPosCode (nextTxPos k)).toNat = k.val + 2 := by
  revert k; decide

/-- `t` is the state after tick `d` of the run that starts in `s`, with `q` callbacks behind it and more to come. -/
structure Sending (s : State) (d q : Nat) (t : State) : Prop where
  period : t.bit_period = s.bit_period
  TXB : t.TXB = s.TXB
  len : t.tx_len = s.tx_len
  busy : t.tx_busy = true
  due : d + t.tx_cnt = s.bit_period * (q + 1)
  rd : t.tx_rd = q / 10
  pos : (txPosCode t.tx_pos).toNat = q % 10
  shift : q % 10 ≠ 0 → Memory.read s.TXB (q / 10) = some t.tx_shift
  out : ∀ e, e / s.bit_period = q → t.tx_out = frameLevel s e

/-- `t` is the state after tick `d` of the run that starts in `s`, the last one. -/
structure SendingEnded (s : State) (d : Nat) (t : State) : Prop where
  last : d = 10 * s.bit_period * s.tx_len
  idle : t.tx_busy = false
  high : t.tx_out = true

/-- `t` is the state after tick `d` of the run that starts in `s`. -/
def RunAfter (s : State) (d : Nat) (t : State) : Prop := (∃ q, Sending s d q t) ∨ SendingEnded s d t

/-- The receive engine has no part in the run (R109). -/
theorem RunAfter.of_rxFrame {s u t : State} {d : Nat} (h : RunAfter s d u) (f : RxFrame u t) : RunAfter s d t := by
  obtain ⟨q, period, TXB, len, busy, due, rd, pos, shift, out⟩ | ⟨last, idle, high⟩ := h
  · refine .inl ⟨q, ?_⟩
    constructor <;>
      simpa only [f.bit_period, f.TXB, f.tx_len, f.tx_busy, f.tx_cnt, f.tx_rd, f.tx_pos, f.tx_shift, f.tx_out]
  · exact .inr ⟨last, f.tx_busy.trans idle, f.tx_out.trans high⟩

/-- The run that START begins (R134). -/
theorem Sending.of_start {s : State} (hbusy : s.tx_busy = true) (hpos : s.tx_pos = .start)
    (hrd : s.tx_rd = 0) (hcnt : s.tx_cnt = s.bit_period) (hout : s.tx_out = true) : Sending s 0 0 s where
  period := rfl
  TXB := rfl
  len := rfl
  busy := hbusy
  due := by omega
  rd := hrd
  pos := by rw [hpos]; rfl
  shift := nofun
  out := fun e he => hout.trans (frameLevel_idle he).symm

/-- A callback before the last is the next one of the run, P ticks before the one after it (R135-R137). -/
theorem Sending.callback {s t : State} {d q : Nat} (h : Sending s d q t) (hc : t.tx_cnt = 1) {out : Bool} {shift : Byte}
    {pos : TxPos} {rd : Nat} (hrd : rd = (q + 1) / 10) (hpos : (txPosCode pos).toNat = (q + 1) % 10)
    (hshift : (q + 1) % 10 ≠ 0 → Memory.read s.TXB ((q + 1) / 10) = some shift)
    (hout : ∀ e, e / s.bit_period = q + 1 → out = frameLevel s e) (r : Option Response) :
    Sending s (d + 1) (q + 1) { t with
      tx_out := out, tx_shift := shift, tx_pos := pos, tx_rd := rd, tx_armed := true, tx_cnt := t.bit_period
      rsp := r } where
  period := h.period
  TXB := h.TXB
  len := h.len
  busy := h.busy
  due := by
    have := h.due
    show d + 1 + t.bit_period = _
    rw [h.period, Nat.mul_add, ← this, hc, Nat.mul_one]
  rd := hrd
  pos := hpos
  shift := hshift
  out := hout

/-- A transmit timer step is one tick of the run (R106, R135-R137). -/
theorem Sending.timerStep {s t u : State} {d q : Nat} (h : Sending s d q t) (hinv : TransmitInv t)
    (hu : txTimerStep t (noResponse t) = .ok u) : RunAfter s (d + 1) u := by
  have harmed : t.tx_armed = true := hinv.busy_armed.symm.trans h.busy
  have hpos := h.pos
  obtain ⟨hoff, -⟩ | ⟨-, -, rfl⟩ | ⟨-, hc, hp, b, hb, rfl⟩ | ⟨-, hc, k, hp, rfl⟩ | ⟨-, hc, hp, hmore, rfl⟩ |
    ⟨-, hc, hp, hlast, rfl⟩ := txTimerStep_cases hu
  · rw [harmed] at hoff
    cases hoff
  · have ⟨hcnt, _⟩ := hinv.cnt harmed
    refine .inl ⟨q, { h with due := ?_ }⟩
    have := h.due
    show d + 1 + (t.tx_cnt - 1) = _
    omega
  · have hq : q % 10 = 0 := by rw [← hpos, hp]; rfl
    obtain ⟨-, hread⟩ := loadCell_ok_iff.mp hb
    rw [h.TXB, h.rd] at hread
    refine .inl ⟨q + 1, h.callback hc (h.rd.trans (by omega)) ?_ (fun _ => ?_) (fun e he => ?_) none⟩
    · show 1 = _
      omega
    · rwa [show (q + 1) / 10 = q / 10 by omega]
    · exact (frameLevel_start he hq).symm
  · have hq : q % 10 = k.val + 1 := by rw [← hpos, hp, txPosCode_data]
    have hshift := h.shift (by omega)
    refine .inl ⟨q + 1, h.callback hc (h.rd.trans (by omega)) ?_ (fun _ => ?_) (fun e he => ?_) none⟩
    · rw [txPosCode_nextTxPos]
      omega
    · rwa [show (q + 1) / 10 = q / 10 by omega]
    · exact (frameLevel_data he hq k.isLt hshift).symm
  · have hq : q % 10 = 9 := by rw [← hpos, hp]; rfl
    have hrd := h.rd
    refine .inl ⟨q + 1, h.callback hc (by omega) ?_ (fun hne => ?_) (fun e he => ?_) none⟩
    · show 0 = _
      omega
    · omega
    · exact (frameLevel_stop he hq).symm
  · have hq : q % 10 = 9 := by rw [← hpos, hp]; rfl
    have hqueued := hinv.queued h.busy
    rw [h.rd, h.len] at hqueued hlast
    have hcallbacks : q + 1 = 10 * s.tx_len := by omega
    refine .inr ⟨?_, rfl, rfl⟩
    calc d + 1 = s.bit_period * (q + 1) := by rw [← h.due, hc]
      _ = 10 * s.bit_period * s.tx_len := by rw [hcallbacks, Nat.mul_left_comm, Nat.mul_assoc]

/-- While bytes are queued the run is not over. -/
theorem Sending.before_end {s t : State} {d q : Nat} (h : Sending s d q t) (hinv : TransmitInv t) :
    d < 10 * s.bit_period * s.tx_len := by
  have ⟨hcnt, _⟩ := hinv.cnt (hinv.busy_armed.symm.trans h.busy)
  have hqueued := hinv.queued h.busy
  rw [h.rd, h.len] at hqueued
  calc d < s.bit_period * (q + 1) := by rw [← h.due]; omega
    _ ≤ s.bit_period * (10 * s.tx_len) := Nat.mul_le_mul_left _ (by omega)
    _ = 10 * s.bit_period * s.tx_len := by rw [Nat.mul_left_comm, Nat.mul_assoc]

/-- Between two callbacks the bit period of the last one runs (R106). -/
theorem Sending.slot {s t : State} {d q : Nat} (h : Sending s d q t) (hinv : TransmitInv t) :
    d / s.bit_period = q := by
  have ⟨hlo, hhi⟩ := hinv.cnt (hinv.busy_armed.symm.trans h.busy)
  have hdue := h.due
  rw [h.period] at hhi
  rw [Nat.mul_add, Nat.mul_one] at hdue
  exact Nat.div_eq_of_lt_le (by rw [Nat.mul_comm]; omega) (by rw [Nat.mul_comm, Nat.mul_add, Nat.mul_one]; omega)

/-- In the last tick of the run the line is at the level of a stop bit. -/
theorem frameLevel_last {s : State} {d : Nat} (hp : 1 ≤ s.bit_period) (hn : 1 ≤ s.tx_len)
    (hd : d = 10 * s.bit_period * s.tx_len) : frameLevel s d = true := by
  have hslot : d / s.bit_period = (10 * s.tx_len - 1) + 1 := by
    rw [hd, show 10 * s.bit_period * s.tx_len = 10 * s.tx_len * s.bit_period by rw [Nat.mul_right_comm],
      Nat.mul_div_cancel _ hp]
    omega
  exact frameLevel_stop hslot (by omega)

/-- A tick before the end of the run is one of the run, whatever the level of rx_in (R109). -/
theorem RunAfter.exec_quiet_tick {s t : State} {d : Nat} (h : RunAfter s d t) (ht : BlockInv t)
    (hts : t.sess = .configured) (hd : d < 10 * s.bit_period * s.tx_len) (rx : Bool) :
    ∃ t', exec (quietTick rx) t = .next t' ∧ BlockInv t' ∧ t'.sess = .configured ∧ RunAfter s (d + 1) t' := by
  obtain ⟨q, hsending⟩ | ended := h
  · obtain ⟨-, htx, -⟩ := (blockInv_iff_of_configured hts).mp ht
    obtain ⟨u, hu, hexec⟩ := ht.exec_quiet_tick hts rx
    have f := txTimerStep_frame hu
    have g := receiveSteps_frame t rx u
    exact ⟨_, hexec, ht.tickEngines hts hu rx, g.sess.trans (f.sess.trans hts), (hsending.timerStep htx hu).of_rxFrame g⟩
  · rw [← ended.last] at hd
    exact absurd hd (Nat.lt_irrefl d)

/-- So is every sequence of ticks that does not go beyond the end of the run. -/
theorem RunAfter.runTicks {s t : State} {d : Nat} (h : RunAfter s d t) (ht : BlockInv t) (hts : t.sess = .configured)
    (levels : List Bool) (hlen : d + levels.length ≤ 10 * s.bit_period * s.tx_len) :
    ∃ t', Machine.runTicks levels t = .next t' ∧ BlockInv t' ∧ t'.sess = .configured ∧
      RunAfter s (d + levels.length) t' := by
  induction levels generalizing t d with
  | nil => exact ⟨t, rfl, ht, hts, h⟩
  | cons rx levels ih =>
    rw [List.length_cons] at hlen
    obtain ⟨v, hexec, hv, hvs, hnext⟩ := h.exec_quiet_tick ht hts (by omega) rx
    obtain ⟨t', hrun, ht', hts', hafter⟩ := ih hnext hv hvs (by omega)
    refine ⟨t', (runInstrs_cons hexec).trans hrun, ht', hts', ?_⟩
    rwa [List.length_cons, show d + (levels.length + 1) = d + 1 + levels.length by omega]

/-- Settles O56: a run is followed callback by callback, and frameLevel says of a slot what its callback drives. -/
theorem frameTimeline : Obligations.FrameTimeline := by
  intro s levels h hs hbusy hpos hrd hcnt hout hlen
  obtain ⟨hset, htx, -⟩ := (blockInv_iff_of_configured hs).mp h
  have hstart : RunAfter s 0 s := .inl ⟨0, .of_start hbusy hpos hrd hcnt hout⟩
  obtain ⟨t, hrun, ht, hts, hafter⟩ := hstart.runTicks h hs levels (by rwa [Nat.zero_add])
  rw [Nat.zero_add] at hafter
  obtain ⟨q, hsending⟩ | ended := hafter
  · obtain ⟨-, htx', -⟩ := (blockInv_iff_of_configured hts).mp ht
    refine ⟨t, hrun, hsending.out _ (hsending.slot htx'), ?_⟩
    rw [hsending.busy, decide_eq_true (hsending.before_end htx')]
  · have hn : 1 ≤ s.tx_len := Nat.zero_lt_of_lt (htx.queued hbusy)
    refine ⟨t, hrun, ended.high.trans (frameLevel_last hset.period_pos hn ended.last).symm, ?_⟩
    rw [ended.idle, ← ended.last, decide_eq_false (Nat.lt_irrefl _)]

end Sys2Proof.Machine

/-! # The encoding (O1, O2, O3, O6)

Every row of the decoder has one shape: what is reserved is refused first, then what is malformed, and what is left is
one instruction. A header is determined by its fields, so the encoder inverts each row. -/

namespace Sys2Proof

/-! ## The rows of the decoder (R93) -/

/-- An opcode is that of a row of the table, or reserved (R83, R91). -/
theorem op_cases (op : BitVec 4) :
    op = 0x0#4 ∨ op = 0x1#4 ∨ op = 0x2#4 ∨ op = 0x3#4 ∨ op = 0x4#4 ∨ 5 ≤ op.toNat := by
  revert op; decide

/-- How a row of the decoder reads the word `w`: refused where it is reserved, else where it is malformed, else as `i`. -/
structure DecoderRow (w : StepWord) (reserved malformed : Prop) (i : Instr) : Prop where
  reserved_iff : decode w = .error .reserved ↔ reserved
  malformed_iff : decode w = .error .malformed ↔ decode w ≠ .error .reserved ∧ malformed
  ok_iff : ∀ j, decode w = .ok j ↔ ¬ reserved ∧ ¬ malformed ∧ i = j

theorem DecoderRow.of_guards {w : StepWord} {r m : Prop} [Decidable r] [Decidable m] {i : Instr}
    (h : decode w = if r then .error .reserved else if m then .error .malformed else .ok i) :
    DecoderRow w r m i := by
  by_cases hr : r
  · simp only [hr, if_true] at h
    constructor <;> simp [h, hr]
  · by_cases hm : m
    · simp only [hr, hm, if_true, if_false] at h
      constructor <;> simp [h, hr, hm]
    · simp only [hr, hm, if_false] at h
      constructor <;> simp [h, hr, hm]

/-- The CONFIGURE of seven operand words (R85). -/
def configureOf (ops : List Word) : Instr :=
  .configure (ops.getD 0 0) (ops.getD 1 0) (ops.getD 2 0) (ops.getD 3 0) (ops.getD 4 0) (ops.getD 5 0) (ops.getD 6 0)

theorem encode_configureOf {ops : List Word} (h : ops.length = 7) :
    encode (configureOf ops) = ⟨plainHeader 0x1#4, ops, []⟩ := by
  match ops, h with
  | [_, _, _, _, _, _, _], _ => rfl

/-- Row 0x1 with its operand words counted. -/
theorem decodeConfigure_eq (w : StepWord) :
    decodeConfigure w =
      if argField w.header ≠ 0#28 then .error .reserved
      else if w.operands.length ≠ 7 ∨ w.payload ≠ [] then .error .malformed
      else .ok (configureOf w.operands) := by
  unfold decodeConfigure
  congr 1
  split
  · rename_i hops hpayload
    simp [hops, hpayload, configureOf]
  · rename_i hother
    refine (if_pos (Classical.byContradiction fun hno => ?_)).symm
    obtain ⟨hlen, hpayload⟩ := not_or.mp hno
    match hops : w.operands, Decidable.not_not.mp hlen with
    | [_, _, _, _, _, _, _], _ => exact hother _ _ _ _ _ _ _ hops (Decidable.not_not.mp hpayload)

section

variable {w : StepWord}

theorem decoderRow_tick (h : opField w.header = 0x0#4) :
    DecoderRow w (tickReserved w.header ≠ 0#25) (w.operands ≠ [] ∨ w.payload ≠ [])
      (.tick (w.header.getLsbD 0) (w.header.getLsbD 1) (w.header.getLsbD 2)) :=
  .of_guards (by simp only [decode, h, if_true, decodeTick])

theorem decoderRow_configure (h : opField w.header = 0x1#4) :
    DecoderRow w (argField w.header ≠ 0#28) (w.operands.length ≠ 7 ∨ w.payload ≠ []) (configureOf w.operands) :=
  .of_guards (by simp [decode, h, decodeConfigure_eq])

theorem decoderRow_write (h : opField w.header = 0x2#4) :
    DecoderRow w (countReserved w.header ≠ 0#12)
      (w.operands ≠ [] ∨ w.payload.length ≠ (countField w.header).toNat)
      (.write (countField w.header) w.payload) :=
  .of_guards (by simp [decode, h, decodeWrite])

theorem decoderRow_read (h : opField w.header = 0x3#4) :
    DecoderRow w (countReserved w.header ≠ 0#12) (w.operands ≠ [] ∨ w.payload ≠ []) (.read (countField w.header)) :=
  .of_guards (by simp [decode, h, decodeRead])

theorem decoderRow_teardown (h : opField w.header = 0x4#4) :
    DecoderRow w (argField w.header ≠ 0#28) (w.operands ≠ [] ∨ w.payload ≠ []) .teardown :=
  .of_guards (by simp [decode, h, decodeTeardown])

/-- No operation has an opcode of 5 or more (R91). -/
theorem decode_of_reserved_op (h : 5 ≤ (opField w.header).toNat) : decode w = .error .reserved := by
  have hne (op : BitVec 4) (hop : op.toNat < 5) : opField w.header ≠ op := fun e => by rw [e] at h; omega
  simp [decode, hne]

end

/-! ## A header is built from its fields -/

theorem tickHeader_fields {h : Word} (hop : opField h = 0x0#4) (hres : tickReserved h = 0#25) :
    tickHeader (h.getLsbD 0) (h.getLsbD 1) (h.getLsbD 2) = h := by
  apply BitVec.eq_of_toNat_eq
  rw [tickHeader_toNat, toNat_eq_op_tick h, hop, hres]
  simp

theorem plainHeader_fields {h : Word} (harg : argField h = 0#28) : plainHeader (opField h) = h := by
  apply BitVec.eq_of_toNat_eq
  rw [plainHeader_toNat, toNat_eq_op_arg h, harg]
  simp

theorem countHeader_fields {h : Word} (hres : countReserved h = 0#12) : countHeader (opField h) (countField h) = h := by
  apply BitVec.eq_of_toNat_eq
  rw [countHeader_toNat, toNat_eq_op_count h, hres]
  simp

/-! ## The encoder and the decoder are inverse -/

/-- Settles O1: each header the encoder builds has the opcode of its row, no reserved bit and its operands' fields. -/
theorem decodeOfEncodedInstr : Obligations.DecodeOfEncodedInstr := by
  intro i hwf
  cases i with
  | tick rx ftx frx =>
    have hop : opField (encode (.tick rx ftx frx)).header = 0x0#4 := by simp [encode]
    exact ((decoderRow_tick hop).ok_iff _).mpr (by simp [encode])
  | configure w1 w2 w3 w4 w5 w6 w7 =>
    have hop : opField (encode (.configure w1 w2 w3 w4 w5 w6 w7)).header = 0x1#4 := by simp [encode]
    exact ((decoderRow_configure hop).ok_iff _).mpr (by simp [encode, configureOf])
  | write n payload =>
    have hlen : payload.length = n.toNat := beq_iff_eq.mp hwf
    have hop : opField (encode (.write n payload)).header = 0x2#4 := by simp [encode]
    exact ((decoderRow_write hop).ok_iff _).mpr (by simp [encode, hlen])
  | read max =>
    have hop : opField (encode (.read max)).header = 0x3#4 := by simp [encode]
    exact ((decoderRow_read hop).ok_iff _).mpr (by simp [encode])
  | teardown =>
    have hop : opField (encode .teardown).header = 0x4#4 := by simp [encode]
    exact ((decoderRow_teardown hop).ok_iff _).mpr (by simp [encode])

/-- Settles O2: a word that is neither reserved nor malformed in its row is the header of its fields, with the operand
words and the payload of the row. -/
theorem decodedWordIsItsEncoding : Obligations.DecodedWordIsItsEncoding := by
  intro w i hdec
  obtain hop | hop | hop | hop | hop | hop := op_cases (opField w.header)
  · obtain ⟨hres, hlen, rfl⟩ := ((decoderRow_tick hop).ok_iff i).mp hdec
    obtain ⟨hops, hpayload⟩ : w.operands = [] ∧ w.payload = [] := by simpa using hlen
    exact ⟨rfl, by rw [encode, tickHeader_fields hop (Decidable.not_not.mp hres), ← hops, ← hpayload]⟩
  · obtain ⟨hres, hlen, rfl⟩ := ((decoderRow_configure hop).ok_iff i).mp hdec
    obtain ⟨hops, hpayload⟩ : w.operands.length = 7 ∧ w.payload = [] := by simpa using hlen
    exact ⟨rfl, by rw [encode_configureOf hops, ← hop, plainHeader_fields (Decidable.not_not.mp hres), ← hpayload]⟩
  · obtain ⟨hres, hlen, rfl⟩ := ((decoderRow_write hop).ok_iff i).mp hdec
    obtain ⟨hops, hpayload⟩ : w.operands = [] ∧ w.payload.length = (countField w.header).toNat := by simpa using hlen
    exact ⟨beq_iff_eq.mpr hpayload, by rw [encode, ← hop, countHeader_fields (Decidable.not_not.mp hres), ← hops]⟩
  · obtain ⟨hres, hlen, rfl⟩ := ((decoderRow_read hop).ok_iff i).mp hdec
    obtain ⟨hops, hpayload⟩ : w.operands = [] ∧ w.payload = [] := by simpa using hlen
    exact ⟨rfl, by rw [encode, ← hop, countHeader_fields (Decidable.not_not.mp hres), ← hops, ← hpayload]⟩
  · obtain ⟨hres, hlen, rfl⟩ := ((decoderRow_teardown hop).ok_iff i).mp hdec
    obtain ⟨hops, hpayload⟩ : w.operands = [] ∧ w.payload = [] := by simpa using hlen
    exact ⟨rfl, by rw [encode, ← hop, plainHeader_fields (Decidable.not_not.mp hres), ← hops, ← hpayload]⟩
  · rw [decode_of_reserved_op hop] at hdec
    cases hdec

/-- Settles O6: the decoder and the transport are run on each word of the tables. -/
theorem specWordsDecodeAsWritten : Obligations.SpecWordsDecodeAsWritten :=
  ⟨rfl, rfl, rfl, rfl, rfl, rfl, rfl⟩

/-! ## The byte transport (R94, R97) -/

theorem encodedLength (i : Instr) : Laws.EncodedLength.Statement i := by
  cases i with
  | tick rx ftx frx => exact Laws.EncodedLength.tick rx ftx frx
  | configure w1 w2 w3 w4 w5 w6 w7 => exact Laws.EncodedLength.configure w1 w2 w3 w4 w5 w6 w7
  | write n payload => exact Laws.EncodedLength.write n payload
  | read max => exact Laws.EncodedLength.read max
  | teardown => exact Laws.EncodedLength.teardown

theorem flatMap_wordBytes_length (ws : List Word) : (ws.flatMap wordBytes).length = 4 * ws.length := by
  induction ws with
  | nil => rfl
  | cons w ws ih =>
    rw [List.flatMap_cons, List.length_append, wordBytes_length, ih, List.length_cons]
    omega

theorem serialize_length (w : StepWord) :
    (serialize w).length = 4 + 4 * w.operands.length + w.payload.length := by
  rw [serialize, List.length_append, List.length_append, wordBytes_length, flatMap_wordBytes_length]

/-- A step word whose lengths are those its header fixes comes off a byte stream, whatever follows it. -/
theorem parse_serialize {w : StepWord} (hops : w.operands.length = operandWords w.header)
    (hpayload : w.payload.length = payloadBytes w.header) (rest : List Byte) :
    parse (serialize w ++ rest) = some (w, rest) := by
  have hheader := takeWords_flatMap [w.header] (w.operands.flatMap wordBytes ++ (w.payload ++ rest))
  have hstream : serialize w ++ rest =
      [w.header].flatMap wordBytes ++ (w.operands.flatMap wordBytes ++ (w.payload ++ rest)) := by
    simp [serialize]
  unfold parse
  rw [hstream, show 1 = [w.header].length from rfl, hheader]
  simp only [← hops, ← hpayload, takeWords_flatMap, takeBytes_append]

/-- Settles O3: an encoding has the lengths its header fixes, and a word that has them comes off a byte stream. -/
theorem serializedStepParsesBack : Obligations.SerializedStepParsesBack := by
  intro i rest hwf
  obtain ⟨hops, hpayload⟩ := encodedLength i hwf
  exact ⟨by rw [serialize_length, hops, hpayload], parse_serialize hops hpayload rest⟩

/-! ## Reserved and malformed words (R91, R92) -/

/-- A field of a header is not 0 exactly where one of its bits is 1. -/
theorem extractLsb'_ne_zero_iff (h : Word) (start len : Nat) :
    h.extractLsb' start len ≠ 0#len ↔ ∃ k, start ≤ k ∧ k < start + len ∧ h.getLsbD k = true := by
  constructor
  · intro hne
    refine Classical.byContradiction fun hno => hne (BitVec.eq_of_getLsbD_eq fun j hj => ?_)
    have hbit : h.getLsbD (start + j) ≠ true := fun hb => hno ⟨start + j, by omega, by omega, hb⟩
    simp [hj, hbit]
  · rintro ⟨k, hlo, hhi, hbit⟩ hzero
    have hfield : (h.extractLsb' start len).getLsbD (k - start) = true := by
      rw [BitVec.getLsbD_extractLsb', Nat.add_sub_cancel' hlo, hbit, decide_eq_true (by omega), Bool.and_self]
    rw [hzero, BitVec.getLsbD_zero] at hfield
    cases hfield

theorem tickReserved_ne_zero_iff (h : Word) :
    tickReserved h ≠ 0#25 ↔ ∃ k, 3 ≤ k ∧ k ≤ 27 ∧ h.getLsbD k = true := by
  simp only [tickReserved, extractLsb'_ne_zero_iff, Nat.lt_succ_iff]

theorem argField_ne_zero_iff (h : Word) : argField h ≠ 0#28 ↔ ∃ k, k ≤ 27 ∧ h.getLsbD k = true := by
  simp only [argField, extractLsb'_ne_zero_iff, Nat.zero_le, Nat.zero_add, Nat.lt_succ_iff, true_and]

theorem countReserved_ne_zero_iff (h : Word) :
    countReserved h ≠ 0#12 ↔ ∃ k, 16 ≤ k ∧ k ≤ 27 ∧ h.getLsbD k = true := by
  simp only [countReserved, extractLsb'_ne_zero_iff, Nat.lt_succ_iff]

theorem countField_toNat (h : Word) : (countField h).toNat = h.toNat % 2 ^ 16 := by
  simp [countField]

/-- The opcode as the header's quotient. -/
theorem div_of_opField {h : Word} {op : BitVec 4} (hop : opField h = op) : h.toNat / 2 ^ 28 = op.toNat := by
  rw [← opField_toNat, hop]

end Sys2Proof

/-! # A step, its refusals and its response (O4, O5, O7, O8, O52) -/

namespace Sys2Proof.Machine

/-! ## A step takes the oldest input (R81, R93) -/

section

variable {s : State} {p : StepInput} {rest : List StepInput}

theorem step_of_decoded (hin : s.input = p :: rest) {i : Instr} (hdec : decode p.word = .ok i) :
    step s = exec i (s.accept p rest) := by
  simp [step, fetch, hin, hdec]

theorem step_of_refused_word (hin : s.input = p :: rest) {e : DecodeError} (hdec : decode p.word = .error e) :
    step s = .refused (refusalOf e) := by
  simp [step, fetch, hin, hdec]

end

theorem step_of_no_input {s : State} (hin : s.input = []) : step s = .next (noResponse s) := by
  simp [step, fetch, hin, waitForInput]

/-! ## Which words are refused (R91, R92) -/

/-- Settles O4: the reserved bits of each row are those the rule names, and no row has an opcode of 5 or more. -/
theorem reservedEncodingsAreRefused : Obligations.ReservedEncodingsAreRefused := by
  refine ⟨fun w => ?_, fun s p rest hin hdec => step_of_refused_word hin hdec⟩
  obtain hop | hop | hop | hop | hop | hop := op_cases (opField w.header)
  · rw [(decoderRow_tick hop).reserved_iff, tickReserved_ne_zero_iff, div_of_opField hop]
    simp
  · rw [(decoderRow_configure hop).reserved_iff, argField_ne_zero_iff, div_of_opField hop]
    simp
  · rw [(decoderRow_write hop).reserved_iff, countReserved_ne_zero_iff, div_of_opField hop]
    simp
  · rw [(decoderRow_read hop).reserved_iff, countReserved_ne_zero_iff, div_of_opField hop]
    simp
  · rw [(decoderRow_teardown hop).reserved_iff, argField_ne_zero_iff, div_of_opField hop]
    simp
  · have hq : 5 ≤ w.header.toNat / 2 ^ 28 := opField_toNat w.header ▸ hop
    exact iff_of_true (decode_of_reserved_op hop) (.inl hq)

/-- Settles O5: what is malformed in each row is what the rule names; the WRITE term is refused before the session is
looked at. -/
theorem malformedCommandsAreRefused : Obligations.MalformedCommandsAreRefused := by
  refine ⟨fun w => ?_, fun s p rest hin hdec => step_of_refused_word hin hdec, fun n payload s hlen => if_pos hlen⟩
  obtain hop | hop | hop | hop | hop | hop := op_cases (opField w.header)
  · rw [(decoderRow_tick hop).malformed_iff, div_of_opField hop]
    simp
  · rw [(decoderRow_configure hop).malformed_iff, div_of_opField hop]
    simp
  · rw [(decoderRow_write hop).malformed_iff, div_of_opField hop, countField_toNat]
    simp
  · rw [(decoderRow_read hop).malformed_iff, div_of_opField hop]
    simp
  · rw [(decoderRow_teardown hop).malformed_iff, div_of_opField hop]
    simp
  · simp [decode_of_reserved_op hop]

/-! ## Which steps run -/

/-- Settles O7. -/
theorem stepRunsTheDecodedInstr : Obligations.StepRunsTheDecodedInstr :=
  ⟨fun _ _ _ hin => ⟨fun _ hdec => step_of_decoded hin hdec, fun hdec => step_of_refused_word hin hdec,
    fun hdec => step_of_refused_word hin hdec⟩, fun _ hin => step_of_no_input hin⟩

theorem decode_of_decodeTableWord {nbits w : Nat} {i : Instr} (h : decodeTableWord nbits w = some i) :
    decode (tableStepWord nbits w) = .ok i := by
  unfold decodeTableWord at h
  split at h
  · cases h
    assumption
  · cases h

/-- Settles O8: the word placed is the oldest input, and taking it leaves the inputs that were there. -/
theorem fetchedTableWordRuns : Obligations.FetchedTableWordRuns := by
  intro s nbits w i h
  have hin : (s.withFetchWord nbits w).input = ⟨tableStepWord nbits w, true, true⟩ :: s.input := rfl
  rw [step_of_decoded hin (decode_of_decodeTableWord h)]
  rfl

/-! ## Responses (R89) -/

theorem exec_tick_rsp {rx ftx frx : Bool} {s t : State} (ht : exec (.tick rx ftx frx) s = .next t) : t.rsp = none := by
  obtain ⟨-, rfl⟩ | ⟨-, -, rfl⟩ | ⟨-, -, u, hu, rfl⟩ := exec_tick_cases ht
  · rfl
  · rfl
  · exact (receiveSteps_frame s rx u).rsp.trans (txTimerStep_frame hu).rsp

theorem exec_configure_rsp {w1 w2 w3 w4 w5 w6 w7 : Word} {s t : State}
    (ht : exec (.configure w1 w2 w3 w4 w5 w6 w7) s = .next t) : ∃ st, t.rsp = some ⟨st, 0, []⟩ := by
  obtain ⟨-, rfl | rfl | ⟨-, -, p, -, rfl⟩⟩ := exec_configure_cases ht <;> exact ⟨_, rfl⟩

/-- A WRITE answers N or an error (R130-R133). -/
theorem exec_write_rsp {n : Half} {payload : List Byte} {s t : State} (ht : exec (.write n payload) s = .next t) :
    t.rsp = some ⟨.ok, n, []⟩ ∨ ∃ st, st ≠ .ok ∧ t.rsp = some ⟨st, 0, []⟩ := by
  obtain ⟨-, ⟨-, rfl⟩ | ⟨-, rfl⟩⟩ := exec_write_cases ht
  · exact .inr ⟨.schedulingFault, nofun, rfl⟩
  · obtain ⟨h0, e⟩ | ⟨-, -, e⟩ | ⟨-, -, -, e⟩ | ⟨-, -, -, e⟩ := enqueue_cases n payload s <;> rw [e]
    · obtain rfl : n = 0 := BitVec.eq_of_toNat_eq h0
      exact .inl rfl
    · exact .inr ⟨.bufferOverflow, nofun, rfl⟩
    · exact .inr ⟨.transferFault, nofun, rfl⟩
    · exact .inl rfl

/-- The number of bytes of a READ fits the count of its response. -/
theorem countOf_readCount_toNat (max : Half) (rxLen : Nat) :
    (countOf (readCount max rxLen)).toNat = readCount max rxLen := by
  have hmax := max.isLt
  simp only [countOf, readCount, BitVec.toNat_ofNat]
  omega

/-- A READ answers the number of its bytes, at most MAX, or an error (R198-R201). -/
theorem exec_read_rsp {max : Half} {s t : State} (ht : exec (.read max) s = .next t) :
    (∃ c data, t.rsp = some ⟨.ok, c, data⟩ ∧ data.length = c.toNat ∧ c.toNat ≤ max.toNat) ∨
    ∃ st, st ≠ .ok ∧ t.rsp = some ⟨st, 0, []⟩ := by
  obtain ⟨-, rfl⟩ | ⟨-, ⟨-, rfl⟩ | ⟨-, -, rfl⟩ | ⟨-, -, data, u, hd, rfl⟩⟩ := exec_read_cases ht
  · exact .inr ⟨.schedulingFault, nofun, rfl⟩
  · exact .inl ⟨0, [], rfl, rfl, Nat.zero_le _⟩
  · exact .inr ⟨.transferFault, nofun, rfl⟩
  · obtain ⟨hlen, -⟩ := drain_ok (Nat.min_le_right _ _) hd
    refine .inl ⟨_, data, rfl, ?_, ?_⟩ <;> rw [countOf_readCount_toNat]
    · exact hlen
    · exact Nat.min_le_left _ _

theorem exec_teardown_rsp {s t : State} (ht : exec .teardown s = .next t) : t.rsp = some ⟨.ok, 0, []⟩ := by
  rw [exec_teardown_eq] at ht
  cases ht
  rfl

/-- Settles O52: each instruction's response, or none for a TICK, has the form the rule asks for. -/
theorem eachHostCommandHasOneResponse : Obligations.EachHostCommandHasOneResponse := by
  intro i s t ht
  cases i with
  | tick rx ftx frx => simp [exec_tick_rsp ht]
  | configure w1 w2 w3 w4 w5 w6 w7 =>
    obtain ⟨st, e⟩ := exec_configure_rsp ht
    simp [e]
  | write n payload =>
    obtain e | ⟨st, hst, e⟩ := exec_write_rsp ht
    · simp [e]
    · simp [e, hst]
  | read max =>
    obtain ⟨c, data, e, hlen, hmax⟩ | ⟨st, -, e⟩ := exec_read_rsp ht
    · simp [e, hlen, hmax]
    · simp [e]
  | teardown => simp [exec_teardown_rsp ht]

end Sys2Proof.Machine

/-! # The bit-timing clock (O10, O11, O27, O28, O30, O40, O54, O55)

A tick is the steps of the two engines, each on its own registers. So two ticks agree on an engine whose registers
agreed before, and an engine whose timer does not fire only counts down. -/

namespace Sys2Proof.Machine

/-! ## Neither engine reads the other (O40)

Each operation of an engine is a function of that engine's registers, the bit period and the parameters: from two states
that agree on these, into two states that agree on the engine's registers, it writes the same. -/

/-! ### Buffers with the same cells -/

theorem SameCells.loadCell {m m' : Memory} (h : SameCells m m') (cap i : Nat) :
    loadCell cap m' i = loadCell cap m i := by
  simp only [Machine.loadCell, h i]

theorem SameCells.write {m m' : Memory} (h : SameCells m m') (i : Nat) (v : Byte) :
    SameCells (Memory.write m i v) (Memory.write m' i v) := by
  intro a
  simp only [read_write, h a]

/-! ### Transmit -/

section

variable {s s' t t' u u' : State} (h : SameTransmit s s') (ht : SameTransmit t t')
  (hP : s'.bit_period = s.bit_period) (hparams : s'.params = s.params)

include h in
theorem SameTransmit.txFires_eq : txFires s' = txFires s := by
  obtain ⟨⟨-, -, -, -, -, -, armed, -, -⟩, cnt⟩ := h
  simp only [txFires, armed, cnt]

include h ht hP hparams in
theorem SameTransmit.startBit (hu : txStartBit s t = .ok u) (hu' : txStartBit s' t' = .ok u') :
    SameTransmit u u' := by
  obtain ⟨⟨-, -, cells, -, rd, -, -, -, -⟩, -⟩ := h
  obtain ⟨⟨busy, -, cells_t, len, rd_t, -, -, -, oe⟩, -⟩ := ht
  rw [txStartBit, hparams, rd, cells.loadCell] at hu'
  rw [txStartBit] at hu
  cases hl : loadCell s.params.TX_CAP s.TXB s.tx_rd with
  | error f =>
    rw [hl] at hu
    cases hu
  | ok b =>
    rw [hl] at hu hu'
    cases hu
    cases hu'
    exact ⟨⟨busy, rfl, cells_t, len, rd_t, rfl, rfl, rfl, oe⟩, hP⟩

include h ht hP in
theorem SameTransmit.dataBit (k : Fin 8) : SameTransmit (txDataBit k s t) (txDataBit k s' t') := by
  obtain ⟨⟨-, -, -, -, -, shift, -, -, -⟩, -⟩ := h
  obtain ⟨⟨busy, -, cells, len, rd, shift_t, -, -, oe⟩, -⟩ := ht
  exact ⟨⟨busy, rfl, cells, len, rd, shift_t, rfl, congrArg (BitVec.getLsbD · k) shift, oe⟩, hP⟩

include h ht hP in
theorem SameTransmit.stopBit : SameTransmit (txStopBit s t) (txStopBit s' t') := by
  obtain ⟨⟨-, -, -, len, rd, -, -, -, -⟩, -⟩ := h
  obtain ⟨⟨busy, -, cells, len_t, -, shift, -, -, oe⟩, cnt⟩ := ht
  simp only [txStopBit, len, rd]
  split
  · exact ⟨⟨busy, rfl, cells, len_t, rfl, shift, rfl, rfl, oe⟩, hP⟩
  · exact ⟨⟨rfl, rfl, cells, rfl, rfl, shift, rfl, rfl, oe⟩, cnt⟩

include h ht hP hparams in
theorem SameTransmit.callback (hu : txCallback s t = .ok u) (hu' : txCallback s' t' = .ok u') :
    SameTransmit u u' := by
  have hpos : s'.tx_pos = s.tx_pos := by
    obtain ⟨⟨-, pos, -⟩, -⟩ := h
    exact pos
  rw [txCallback, hpos] at hu'
  rw [txCallback] at hu
  cases hs : s.tx_pos with
  | start =>
    rw [hs] at hu hu'
    exact h.startBit ht hP hparams hu hu'
  | data k =>
    rw [hs] at hu hu'
    cases hu
    cases hu'
    exact h.dataBit ht hP k
  | stop =>
    rw [hs] at hu hu'
    cases hu
    cases hu'
    exact h.stopBit ht hP

include h ht hP hparams in
/-- Both timers fire, or both count down, or both are off (R106). -/
theorem SameTransmit.timerStep (hu : txTimerStep s t = .ok u) (hu' : txTimerStep s' t' = .ok u') :
    SameTransmit u u' := by
  have harmed : s'.tx_armed = s.tx_armed := by
    obtain ⟨⟨-, -, -, -, -, -, armed, -, -⟩, -⟩ := h
    exact armed
  rw [txTimerStep, h.txFires_eq, harmed, h.2] at hu'
  rw [txTimerStep] at hu
  split at hu
  · rw [if_pos ‹_›] at hu'
    exact h.callback ht hP hparams hu hu'
  · rw [if_neg ‹_›] at hu'
    obtain ⟨same, cnt⟩ := ht
    split at hu
    · rw [if_pos ‹_›] at hu'
      cases hu
      cases hu'
      exact ⟨same, rfl⟩
    · rw [if_neg ‹_›] at hu'
      cases hu
      cases hu'
      exact ⟨same, cnt⟩

end

/-- The receive steps leave what the transmit engines agree on (R109). -/
theorem SameTransmit.of_rxFrames {u u' t t' : State} (h : SameTransmit u u') (f : RxFrame u t) (f' : RxFrame u' t') :
    SameTransmit t t' := by
  simpa only [SameTransmit, SameTransmitButCount, f.tx_busy, f.tx_pos, f.TXB, f.tx_len, f.tx_rd, f.tx_shift,
    f.tx_armed, f.tx_out, f.tx_oe, f.tx_cnt, f'.tx_busy, f'.tx_pos, f'.TXB, f'.tx_len, f'.tx_rd, f'.tx_shift,
    f'.tx_armed, f'.tx_out, f'.tx_oe, f'.tx_cnt] using h

/-! ### Receive -/

/-- The transmit step leaves what the receive engines agree on (R109). -/
theorem SameReceive.of_txFrames {u u' t t' : State} (h : SameReceive u u') (f : TxFrame u t) (f' : TxFrame u' t') :
    SameReceive t t' := by
  simpa only [SameReceive, SameReceiveButCount, f.RXB, f.rx_len, f.rx_acc, f.rx_count, f.edge_en, f.rx_armed, f.rx_cnt,
    f.rx_prev, f.rx_prev_valid, f.edge_pending, f'.RXB, f'.rx_len, f'.rx_acc, f'.rx_count, f'.edge_en, f'.rx_armed,
    f'.rx_cnt, f'.rx_prev, f'.rx_prev_valid, f'.edge_pending] using h

section

variable {s s' t t' : State} (h : SameReceive s s') (ht : SameReceive t t')
  (hP : s'.bit_period = s.bit_period) (hparams : s'.params = s.params)

include h ht hparams in
theorem SameReceive.commit (b : Byte) : SameReceive (rxCommit s b t) (rxCommit s' b t') := by
  obtain ⟨⟨cells, len, -, -, -, -, -⟩, -, -, -⟩ := h
  obtain ⟨⟨cells_t, len_t, -, -, -, -, pending⟩, cnt, prev, valid⟩ := ht
  simp only [rxCommit, len, hparams]
  split
  · exact ⟨⟨cells.write _ _, rfl, rfl, rfl, rfl, rfl, pending⟩, cnt, prev, valid⟩
  · exact ⟨⟨cells_t, len_t, rfl, rfl, rfl, rfl, pending⟩, cnt, prev, valid⟩

include h ht hP hparams in
theorem SameReceive.sample (x : Bool) : SameReceive (rxSample s x t) (rxSample s' x t') := by
  have hcommit := h.commit ht hparams (shiftIn s.rx_acc x)
  obtain ⟨⟨-, -, acc, count, -, -, -⟩, -, -, -⟩ := h
  obtain ⟨⟨cells, len, -, -, edge, -, pending⟩, -, prev, valid⟩ := ht
  simp only [rxSample, acc, count]
  split
  · exact ⟨⟨cells, len, rfl, rfl, edge, rfl, pending⟩, hP, prev, valid⟩
  · exact hcommit

include h in
theorem SameReceive.rxFires_eq : rxFires s' = rxFires s := by
  obtain ⟨⟨-, -, -, -, -, armed, -⟩, cnt, -, -⟩ := h
  simp only [rxFires, armed, cnt]

include h in
theorem SameReceive.edgeTaken_eq (rx : Bool) : edgeTaken s' rx = edgeTaken s rx := by
  obtain ⟨⟨-, -, -, -, edge, -, pending⟩, -, prev, valid⟩ := h
  simp only [edgeTaken, fall, edge, pending, prev, valid]

include h hparams in
theorem SameReceive.edgeLatched_eq (rx : Bool) : edgeLatched s' rx = edgeLatched s rx := by
  obtain ⟨⟨-, -, -, -, edge, -, -⟩, -, prev, valid⟩ := h
  simp only [edgeLatched, fall, edge, prev, valid, hparams]

include h ht hP hparams in
/-- Both timers fire, or both count down, or both are off (R106). -/
theorem SameReceive.timerStep (x : Bool) : SameReceive (rxTimerStep s x t) (rxTimerStep s' x t') := by
  have hsample := h.sample ht hP hparams x
  rw [rxTimerStep, rxTimerStep, h.rxFires_eq]
  obtain ⟨⟨-, -, -, -, -, armed, -⟩, cnt, -, -⟩ := h
  obtain ⟨same, cnt_t, prev, valid⟩ := ht
  rw [armed, cnt]
  split
  · exact hsample
  · split
    · exact ⟨same, rfl, prev, valid⟩
    · exact ⟨same, cnt_t, prev, valid⟩

include h ht hP hparams in
theorem SameReceive.edgeStep (rx : Bool) : SameReceive (edgeStep s rx t) (edgeStep s' rx t') := by
  rw [Machine.edgeStep, Machine.edgeStep, h.edgeTaken_eq, h.edgeLatched_eq hparams]
  obtain ⟨⟨cells, len, acc, count, edge, armed, pending⟩, cnt, prev, valid⟩ := ht
  split
  · exact ⟨⟨cells, len, rfl, rfl, rfl, rfl, rfl⟩, hP, prev, valid⟩
  · split
    · exact ⟨⟨cells, len, acc, count, edge, armed, rfl⟩, cnt, prev, valid⟩
    · exact ⟨⟨cells, len, acc, count, edge, armed, pending⟩, cnt, prev, valid⟩

include ht in
theorem SameReceive.prevUpdate (rx : Bool) : SameReceive (prevUpdate rx t) (prevUpdate rx t') := by
  obtain ⟨same, cnt, -, -⟩ := ht
  exact ⟨same, cnt, rfl, rfl⟩

end

/-- A tick of a Configured block without fault inputs is the steps of the engines. -/
theorem exec_quiet_tick_steps {rx : Bool} {s t : State} (hs : s.sess = .configured)
    (ht : exec (.tick rx false false) s = .next t) :
    ∃ u, txTimerStep s (noResponse s) = .ok u ∧ t = prevUpdate rx (edgeStep s rx (rxTimerStep s rx u)) := by
  rwa [exec_tick_of_engines hs (schedFault_quiet s), outcomeOf_eq_next, tickEngines_eq_ok] at ht

/-- Settles O40: the transmit step is a function of the transmit engine, which the receive steps leave; the receive
steps are functions of the receive engine and the level, which the transmit step leaves. -/
theorem enginesDoNotInterfere : Obligations.EnginesDoNotInterfere := by
  intro rx rx' s s' t t' hs hs' hP hparams ht ht'
  obtain ⟨u, hu, rfl⟩ := exec_quiet_tick_steps hs ht
  obtain ⟨u', hu', rfl⟩ := exec_quiet_tick_steps hs' ht'
  constructor
  · intro h
    exact (h.timerStep (t := noResponse s) (t' := noResponse s') h hP hparams hu hu').of_rxFrames
      (receiveSteps_frame s rx u) (receiveSteps_frame s' rx' u')
  · rintro rfl h
    have hsame : SameReceive u u' :=
      SameReceive.of_txFrames (u := noResponse s) (u' := noResponse s') h (txTimerStep_frame hu) (txTimerStep_frame hu')
    exact (h.edgeStep (h.timerStep hsame hP hparams rx') hP hparams rx').prevUpdate rx'

/-! ## BitPeriod (O10, O11) -/

/-- BitPeriod of a baud rate that is not positive (R101). -/
theorem bitPeriod_of_nonpos {b : Int} (h : b ≤ 0) : bitPeriod b = .invalid := if_pos h

/-- BitPeriod of a baud rate above the number of ticks in a second (R102). -/
theorem bitPeriod_of_too_fast {b : Int} (h : 1000000 < b) : bitPeriod b = .zero := by
  have hzero : 1000000 / b.toNat = 0 := Nat.div_eq_of_lt (by omega)
  rw [bitPeriod, if_neg (by omega), if_pos hzero]

/-- Settles O10. -/
theorem bitPeriodTruncates : Obligations.BitPeriodTruncates := by
  intro b
  refine ⟨bitPeriod_of_nonpos, fun h1 h2 => ?_, bitPeriod_of_too_fast⟩
  exact ⟨bitPeriod_of_legal h1 h2, Nat.div_pos (by omega) (by omega)⟩

/-- Settles O11: P is the quotient by B, which times B is the dividend or less, and all of it when B divides it. -/
theorem lineRateIsAtLeastBaud : Obligations.LineRateIsAtLeastBaud := by
  intro b p h
  obtain ⟨-, -, rfl, hpos, hle⟩ := bitPeriod_eq_ticks h
  exact ⟨hpos, hle, Nat.mul_div_le _ _, Nat.mul_div_eq_iff_dvd⟩

/-! ## TICK outside Configured, and the scheduling fault (O27, O28) -/

/-- Settles O27. -/
theorem tickOutsideConfiguredDoesNothing : Obligations.TickOutsideConfiguredDoesNothing :=
  fun rx ftx frx _ hs => exec_tick_of_not_configured hs rx ftx frx

theorem schedFault_eq_false (s : State) (ftx frx : Bool) :
    schedFault s ftx frx = false ↔ (ftx = true → s.tx_armed = false) ∧ (frx = true → s.rx_armed = false) := by
  simp [schedFault]

/-- Settles O28: a fault input without its timer is no scheduling fault, so the engines run as without it. -/
theorem schedulingFaultTakesTheTick : Obligations.SchedulingFaultTakesTheTick := by
  refine fun rx ftx frx s hs => ⟨fun hf => ?_, fun htx hrx => ?_⟩
  · exact exec_tick_of_fault hs ((schedFault_eq_true s ftx frx).mpr hf) rx
  · have hnone : schedFault s ftx frx = false := (schedFault_eq_false s ftx frx).mpr ⟨htx, hrx⟩
    rw [exec_tick_of_engines hs hnone, exec_tick_of_engines hs (schedFault_quiet s)]

/-! ## Timers count down (O30, O55)

A timer that waits for more ticks than have run leaves its engine as it was and has that much less to wait. -/

/-- In `n` ticks the transmit engine did nothing but count down. -/
def TransmitWaited (n : Nat) (s t : State) : Prop := SameTransmitButCount s t ∧ t.tx_cnt = s.tx_cnt - n

/-- In `n` ticks the receive engine, a byte in progress, took no sample and counted down. -/
structure ReceiveWaited (n : Nat) (s t : State) : Prop where
  armed : t.rx_armed = true
  acc : t.rx_acc = s.rx_acc
  count : t.rx_count = s.rx_count
  len : t.rx_len = s.rx_len
  cells : SameCells s.RXB t.RXB
  edge_en : t.edge_en = s.edge_en
  cnt : t.rx_cnt = s.rx_cnt - n

theorem SameTransmitButCount.trans {s t u : State} (h : SameTransmitButCount s t) (k : SameTransmitButCount t u) :
    SameTransmitButCount s u := by
  obtain ⟨busy, pos, cells, len, rd, shift, armed, out, oe⟩ := h
  obtain ⟨busy', pos', cells', len', rd', shift', armed', out', oe'⟩ := k
  exact ⟨busy'.trans busy, pos'.trans pos, fun a => (cells' a).trans (cells a), len'.trans len, rd'.trans rd,
    shift'.trans shift, armed'.trans armed, out'.trans out, oe'.trans oe⟩

theorem RxFrame.sameTransmit {u t : State} (f : RxFrame u t) : SameTransmit u t :=
  ⟨⟨f.tx_busy, f.tx_pos, fun a => congrArg (Memory.read · a) f.TXB, f.tx_len, f.tx_rd, f.tx_shift, f.tx_armed, f.tx_out,
    f.tx_oe⟩, f.tx_cnt⟩

theorem TransmitWaited.trans {m n : Nat} {s t u : State} (h : TransmitWaited m s t) (k : TransmitWaited n t u) :
    TransmitWaited (m + n) s u := by
  obtain ⟨same, cnt⟩ := h
  obtain ⟨same', cnt'⟩ := k
  exact ⟨same.trans same', by omega⟩

theorem ReceiveWaited.trans {m n : Nat} {s t u : State} (h : ReceiveWaited m s t) (k : ReceiveWaited n t u) :
    ReceiveWaited (m + n) s u where
  armed := k.armed
  acc := k.acc.trans h.acc
  count := k.count.trans h.count
  len := k.len.trans h.len
  cells := fun a => (k.cells a).trans (h.cells a)
  edge_en := k.edge_en.trans h.edge_en
  cnt := by rw [k.cnt, h.cnt, Nat.sub_sub]

theorem txTimerStep_of_not_armed {pre : State} (ha : pre.tx_armed = false) (u : State) : txTimerStep pre u = .ok u := by
  simp [txTimerStep, txFires, ha]

theorem txTimerStep_of_counting {pre : State} (ha : pre.tx_armed = true) (hc : pre.tx_cnt ≠ 1) (u : State) :
    txTimerStep pre u = .ok { u with tx_cnt := pre.tx_cnt - 1 } := by
  simp [txTimerStep, txFires, ha, hc]

theorem rxTimerStep_of_counting {pre : State} (ha : pre.rx_armed = true) (hc : pre.rx_cnt ≠ 1) (x : Bool) (u : State) :
    rxTimerStep pre x u = { u with rx_cnt := pre.rx_cnt - 1 } := by
  simp [rxTimerStep, rxFires, ha, hc]

/-- Without an edge event the edge step can write edge_pending alone (R162). -/
theorem edgeStep_of_not_taken {pre : State} {rx : Bool} (ht : edgeTaken pre rx = false) (u : State) :
    ∃ p, edgeStep pre rx u = { u with edge_pending := p } := by
  obtain ⟨ht', -⟩ | ⟨-, -, e⟩ | ⟨-, -, e⟩ := edgeStep_cases pre rx u
  · exact absurd (ht.symm.trans ht') nofun
  · exact ⟨_, e⟩
  · exact ⟨_, e⟩

/-- What a tick without fault inputs does to the engines while their timers do not fire (R106). -/
structure WaitingTick (s t : State) : Prop where
  transmit : s.tx_armed = true → s.tx_cnt ≠ 1 → TransmitWaited 1 s t
  transmit_off : s.tx_armed = false → SameTransmit s t
  receive : s.rx_armed = true → s.rx_cnt ≠ 1 → ReceiveWaited 1 s t

/-- A byte in progress has edge delivery off, so the edge step cannot touch it (R50 item 8). -/
theorem BlockInv.waitingTick {s u : State} (h : BlockInv s) (hs : s.sess = .configured)
    (hu : txTimerStep s (Machine.noResponse s) = .ok u) (rx : Bool) :
    WaitingTick s (prevUpdate rx (Machine.edgeStep s rx (rxTimerStep s rx u))) := by
  obtain ⟨same, cnt⟩ := (receiveSteps_frame s rx u).sameTransmit
  refine ⟨fun ha hc => ?_, fun ha => ?_, fun ha hc => ?_⟩
  · rw [txTimerStep_of_counting ha hc] at hu
    cases hu
    exact ⟨same, cnt⟩
  · rw [txTimerStep_of_not_armed ha] at hu
    cases hu
    exact ⟨same, cnt⟩
  · obtain ⟨-, -, hrx⟩ := (blockInv_iff_of_configured hs).mp h
    have f := txTimerStep_frame hu
    obtain ⟨p, e⟩ := edgeStep_of_not_taken (hrx.edgeTaken_of_armed ha rx) (rxTimerStep s rx u)
    rw [e, rxTimerStep_of_counting ha hc]
    exact ⟨f.rx_armed.trans ha, f.rx_acc, f.rx_count, f.rx_len, fun a => congrArg (Memory.read · a) f.RXB,
      f.edge_en, rfl⟩

/-- Settles O30. -/
theorem timersCountDown : Obligations.TimersCountDown := by
  intro rx s h hs
  obtain ⟨u, hu, hexec⟩ := h.exec_quiet_tick hs rx
  obtain ⟨transmit, transmit_off, receive⟩ := h.waitingTick hs hu rx
  refine ⟨_, hexec, transmit, transmit_off, fun ha hc => ?_⟩
  obtain ⟨armed, acc, count, len, cells, edge, cnt⟩ := receive ha hc
  exact ⟨cnt, armed, acc, count, len, cells, edge⟩

/-- Ticks fewer than a timer's count are ticks in which it waits. -/
theorem BlockInv.runTicks_waiting {s : State} (h : BlockInv s) (hs : s.sess = .configured) (levels : List Bool) :
    ∃ t, runTicks levels s = .next t ∧
      (s.tx_armed = true → levels.length < s.tx_cnt → TransmitWaited levels.length s t) ∧
      (s.rx_armed = true → levels.length < s.rx_cnt → ReceiveWaited levels.length s t) := by
  induction levels generalizing s with
  | nil =>
    exact ⟨s, rfl, fun _ _ => ⟨⟨rfl, rfl, fun _ => rfl, rfl, rfl, rfl, rfl, rfl, rfl⟩, rfl⟩,
      fun ha _ => ⟨ha, rfl, rfl, rfl, fun _ => rfl, rfl, rfl⟩⟩
  | cons rx levels ih =>
    obtain ⟨u, hu, hexec⟩ := h.exec_quiet_tick hs rx
    have first := h.waitingTick hs hu rx
    have hsess := (receiveSteps_frame s rx u).sess.trans ((txTimerStep_frame hu).sess.trans hs)
    obtain ⟨t, hrun, transmit, receive⟩ := ih (h.tickEngines hs hu rx) hsess
    rw [List.length_cons, Nat.add_comm]
    refine ⟨t, (runInstrs_cons hexec).trans hrun, fun ha hlt => ?_, fun ha hlt => ?_⟩
    · have w := first.transmit ha (by omega)
      have ⟨⟨_, _, _, _, _, _, armed, _, _⟩, cnt⟩ := w
      exact w.trans (transmit (armed.trans ha) (by omega))
    · have w := first.receive ha (by omega)
      have cnt := w.cnt
      exact w.trans (receive w.armed (by omega))

/-- Settles O55: a timer that waited so far fires in the next tick exactly when its count is down to 1. -/
theorem timerFiresInTheTickItsCountNames : Obligations.TimerFiresInTheTickItsCountNames := by
  intro s levels h hs
  obtain ⟨t, hrun, transmit, receive⟩ := h.runTicks_waiting hs levels
  refine ⟨t, hrun, fun ha hlt => ?_, fun ha hlt => ?_⟩
  · obtain ⟨same, cnt⟩ := transmit ha hlt
    refine ⟨same, cnt, ?_⟩
    obtain ⟨-, -, -, -, -, -, armed, -, -⟩ := same
    simp only [txFires_eq_true, armed, ha, cnt, true_and]
    omega
  · obtain ⟨armed, acc, count, len, cells, -, cnt⟩ := receive ha hlt
    refine ⟨armed, acc, count, len, cells, cnt, ?_⟩
    simp only [rxFires_eq_true, armed, cnt, true_and]
    omega

/-! ## The host commands and the timers (O54) -/

/-- A host command leaves both timers, or cancels both or finds them off, or is a START, which arms the transmit timer
of an idle engine (R134). -/
inductive HostTimers (s t : State) : Prop where
  | kept (tx_armed : t.tx_armed = s.tx_armed) (tx_cnt : t.tx_cnt = s.tx_cnt) (rx_armed : t.rx_armed = s.rx_armed)
      (rx_cnt : t.rx_cnt = s.rx_cnt)
  | off (tx_armed : t.tx_armed = false) (rx_armed : t.rx_armed = false)
  | started (idle : s.tx_busy = false) (tx_cnt : t.tx_cnt = s.bit_period) (rx_armed : t.rx_armed = s.rx_armed)
      (rx_cnt : t.rx_cnt = s.rx_cnt)

/-- A WRITE starts the transmit timer of an idle engine alone (R133). -/
theorem exec_write_timers {n : Half} {payload : List Byte} {s t : State} (ht : exec (.write n payload) s = .next t) :
    HostTimers s t := by
  obtain ⟨-, ⟨-, rfl⟩ | ⟨-, rfl⟩⟩ := exec_write_cases ht
  · exact .kept rfl rfl rfl rfl
  · obtain ⟨-, e⟩ | ⟨-, -, e⟩ | ⟨-, -, -, e⟩ | ⟨-, -, -, e⟩ := enqueue_cases n payload s <;> rw [e]
    · exact .kept rfl rfl rfl rfl
    · exact .kept rfl rfl rfl rfl
    · exact .kept rfl rfl rfl rfl
    · cases hb : s.tx_busy with
      | true =>
        rw [txAppend_busy payload hb]
        exact .kept rfl rfl rfl rfl
      | false =>
        rw [txAppend_idle payload hb]
        exact .started hb rfl rfl rfl

theorem BlockInv.exec_host_timers {i : Instr} {s t : State} (h : BlockInv s) (hi : ∀ rx ftx frx, i ≠ .tick rx ftx frx)
    (ht : Machine.exec i s = .next t) : HostTimers s t := by
  cases i with
  | tick rx ftx frx => exact absurd rfl (hi rx ftx frx)
  | configure w1 w2 w3 w4 w5 w6 w7 =>
    obtain ⟨-, rfl | rfl | ⟨-, -, p, -, rfl⟩⟩ := exec_configure_cases ht
    · exact .kept rfl rfl rfl rfl
    · exact .kept rfl rfl rfl rfl
    · exact .off rfl rfl
  | write n payload => exact exec_write_timers ht
  | read max =>
    obtain ⟨m, len, r, rfl⟩ := exec_read_frame ht
    exact .kept rfl rfl rfl rfl
  | teardown =>
    have off := h.exec_teardown_flags ht
    exact .off off.tx_armed off.rx_armed

/-- The transmit timer of an idle engine is off, in every session state (R50, R51). -/
theorem BlockInv.not_armed_of_idle {s : State} (h : BlockInv s) (hb : s.tx_busy = false) : s.tx_armed = false := by
  cases hs : s.sess with
  | unconfigured => exact (h.flagsOff hs).tx_armed
  | configured =>
    obtain ⟨-, htx, -⟩ := (blockInv_iff_of_configured hs).mp h
    exact htx.busy_armed.symm.trans hb
  | faulted =>
    obtain ⟨-, hby⟩ := h
    exact (hby.of_faulted hs).2.tx_off

/-- Settles O54. -/
theorem hostCommandsTakeNoTime : Obligations.HostCommandsTakeNoTime := by
  intro i s t hi h ht
  cases h.exec_host_timers hi ht with
  | kept tx_armed tx_cnt rx_armed rx_cnt => simp +contextual [tx_armed, tx_cnt, rx_armed, rx_cnt]
  | off tx_armed rx_armed => simp [tx_armed, rx_armed]
  | started idle tx_cnt rx_armed rx_cnt =>
    simp +contextual [h.not_armed_of_idle idle, tx_cnt, rx_armed, rx_cnt]

end Sys2Proof.Machine

/-! # The transmit engine (O15, O16, O17, O31, O32, O33, O39, O48)

Two operations write the transmit registers of a running session: the append of an accepted WRITE and the transmit timer
step of a TICK. Every statement here follows from what one of them does; the receive steps of the tick leave its writes
as they are. -/

namespace Sys2Proof.Machine

/-! ## WRITE (O15, O16, O17) -/

section

variable {s : State} {n : Half} {payload : List Byte} (hs : s.sess = .configured) (hlen : payload.length = n.toNat)

include hs hlen

/-- On a Configured session a well-formed WRITE is ENQUEUE and its response (R195). -/
theorem exec_write_of_configured :
    exec (.write n payload) s =
      .next (respond (enqueue n payload s).1 (enqueue n payload s).2.1 [] (enqueue n payload s).2.2) := by
  simp only [exec, execWrite, writeCount, hs, hlen, ne_eq, not_true_eq_false, if_false]

/-- R130. -/
theorem exec_write_of_empty (hn : n.toNat = 0) : exec (.write n payload) s = .next (respond .ok 0 [] s) := by
  rw [exec_write_of_configured hs hlen, enqueue, writeCount, if_pos hn]

/-- R131, whatever the copy-in would answer. -/
theorem exec_write_of_overflow (hn : 1 ≤ n.toNat) (hcap : s.params.TX_CAP < s.tx_len + n.toNat) :
    exec (.write n payload) s = .next (respond .bufferOverflow 0 [] s) := by
  rw [exec_write_of_configured hs hlen, enqueue, writeCount, if_neg (by omega), if_pos hcap]

/-- R132. -/
theorem exec_write_of_failed_copy (hn : 1 ≤ n.toNat) (hcap : s.tx_len + n.toNat ≤ s.params.TX_CAP)
    (hx : s.xfer_ok = false) : exec (.write n payload) s = .next (respond .transferFault 0 [] s) := by
  rw [exec_write_of_configured hs hlen, enqueue, writeCount, if_neg (by omega), if_neg (by omega),
    if_neg (ne_true_of_eq_false hx)]

/-- R133. -/
theorem exec_write_of_accepted (hn : 1 ≤ n.toNat) (hcap : s.tx_len + n.toNat ≤ s.params.TX_CAP)
    (hx : s.xfer_ok = true) : exec (.write n payload) s = .next (respond .ok n [] (txAppend payload s)) := by
  rw [exec_write_of_configured hs hlen, enqueue, writeCount, if_neg (by omega), if_neg (by omega), if_pos hx]

end

/-- Settles O16. -/
theorem writeRejectedWhole : Obligations.WriteRejectedWhole :=
  fun _ _ _ hs hlen =>
    ⟨exec_write_of_empty hs hlen, exec_write_of_overflow hs hlen, exec_write_of_failed_copy hs hlen⟩

/-- Settles O15: the new TXB holds the payload in the cells from tx_len on. -/
theorem writeAppendsAndStartsWhenIdle : Obligations.WriteAppendsAndStartsWhenIdle := by
  intro n payload s hs hlen hn hcap hx
  have hexec := exec_write_of_accepted hs hlen hn hcap hx
  rw [← hlen]
  refine ⟨storeCells s.TXB s.tx_len payload, read_storeCells_inside payload _ _, read_storeCells_outside payload _ _,
    fun hb => ?_, fun hb => ?_⟩
  · rw [hexec, txAppend_busy payload hb]
    rfl
  · rw [hexec, txAppend_idle payload hb]
    rfl

/-- A WRITE that answers a next state writes the response port alone, or appends its payload and answers OK N (R130-R133,
R195). -/
theorem exec_write_unchanged_or_appended {n : Half} {payload : List Byte} {s t : State}
    (ht : exec (.write n payload) s = .next t) :
    (∃ r, t = { s with rsp := r }) ∨
    (payload.length = n.toNat ∧ t = respond .ok n [] (txAppend payload s)) := by
  obtain ⟨hlen, ⟨-, rfl⟩ | ⟨-, rfl⟩⟩ := exec_write_cases ht
  · exact .inl ⟨_, rfl⟩
  · obtain ⟨-, e⟩ | ⟨-, -, e⟩ | ⟨-, -, -, e⟩ | ⟨-, -, -, e⟩ := enqueue_cases n payload s <;> rw [e]
    · exact .inl ⟨_, rfl⟩
    · exact .inl ⟨_, rfl⟩
    · exact .inl ⟨_, rfl⟩
    · exact .inr ⟨hlen, rfl⟩

/-- The append leaves the cells outside its range alone, with START and without (R133). -/
theorem read_txAppend_outside (payload : List Byte) (s : State) {a : Nat}
    (ha : a < s.tx_len ∨ s.tx_len + payload.length ≤ a) :
    Memory.read (txAppend payload s).TXB a = Memory.read s.TXB a := by
  have hcells := read_storeCells_outside payload s.TXB s.tx_len a ha
  cases hb : s.tx_busy with
  | true => rwa [txAppend_busy payload hb]
  | false => rwa [txAppend_idle payload hb]

/-- Settles O17: a WRITE that appends writes TXB, tx_len and, on an idle engine alone, START's fields. -/
theorem writeFrame : Obligations.WriteFrame := by
  intro n payload s t ht
  obtain ⟨r, rfl⟩ | ⟨hlen, rfl⟩ := exec_write_unchanged_or_appended ht
  · simp +contextual [SamePorts, SameSession, SameReceive, SameReceiveButCount, SameCells]
  · have hcells (a : Nat) (ha : a < s.tx_len ∨ s.tx_len + n.toNat ≤ a) :=
      read_txAppend_outside payload s (hlen.symm ▸ ha)
    simp only [respond_rsp, respond_TXB]
    cases hb : s.tx_busy with
    | true =>
      rw [txAppend_busy payload hb] at hcells ⊢
      simpa [SamePorts, SameSession, SameReceive, SameReceiveButCount, SameCells, hb] using hcells
    | false =>
      rw [txAppend_idle payload hb] at hcells ⊢
      simpa [SamePorts, SameSession, SameReceive, SameReceiveButCount, SameCells] using hcells

/-! ## The transmit callbacks (O31, O32, O33) -/

/-- A tick of a Configured block completes where its transmit step does, and what that step wrote stands (R113). -/
theorem exec_quiet_tick_of_txTimerStep {s u : State} (hs : s.sess = .configured)
    (hu : txTimerStep s (noResponse s) = .ok u) (rx : Bool) :
    ∃ t, exec (.tick rx false false) s = .next t ∧ RxFrame u t := by
  refine ⟨_, ?_, receiveSteps_frame s rx u⟩
  rw [exec_tick_of_engines hs (schedFault_quiet s), outcomeOf_eq_next, tickEngines_eq_ok]
  exact ⟨u, hu, rfl⟩

section

variable {pre : State} (ha : pre.tx_armed = true) (hc : pre.tx_cnt = 1)

include ha hc

/-- A timer that fires runs its callback (R106). -/
theorem txTimerStep_of_firing (u : State) : txTimerStep pre u = txCallback pre u :=
  if_pos ((txFires_eq_true pre).mpr ⟨ha, hc⟩)

/-- R135. -/
theorem txTimerStep_of_start (hp : pre.tx_pos = .start) {b : Byte}
    (hb : loadCell pre.params.TX_CAP pre.TXB pre.tx_rd = .ok b) (u : State) :
    txTimerStep pre u = .ok { u with
      tx_out := false, tx_shift := b, tx_pos := .data 0, tx_armed := true, tx_cnt := pre.bit_period } := by
  rw [txTimerStep_of_firing ha hc, txCallback, hp]
  simp only [txStartBit, hb]
  rfl

/-- R136. -/
theorem txTimerStep_of_data {k : Fin 8} (hp : pre.tx_pos = .data k) (u : State) :
    txTimerStep pre u = .ok { u with
      tx_out := pre.tx_shift.getLsbD k.val, tx_pos := nextTxPos k, tx_armed := true, tx_cnt := pre.bit_period } := by
  rw [txTimerStep_of_firing ha hc, txCallback, hp]
  rfl

/-- R137, with more bytes queued. -/
theorem txTimerStep_of_stop_more (hp : pre.tx_pos = .stop) (hmore : pre.tx_rd + 1 < pre.tx_len) (u : State) :
    txTimerStep pre u = .ok { u with
      tx_out := true, tx_pos := .start, tx_rd := pre.tx_rd + 1, tx_armed := true, tx_cnt := pre.bit_period } := by
  rw [txTimerStep_of_firing ha hc, txCallback, hp]
  simp only [txStopBit, if_pos hmore]
  rfl

/-- R137, at the end of the run. -/
theorem txTimerStep_of_stop_last (hp : pre.tx_pos = .stop) (hlast : pre.tx_len ≤ pre.tx_rd + 1) (u : State) :
    txTimerStep pre u = .ok { u with
      tx_out := true, tx_pos := .start, tx_busy := false, tx_rd := 0, tx_len := 0, tx_armed := false } := by
  rw [txTimerStep_of_firing ha hc, txCallback, hp]
  simp only [txStopBit, if_neg (Nat.not_lt.mpr hlast)]
  rfl

end

/-- The receive steps leave every cell of TXB. -/
theorem RxFrame.sameCells_TXB {u t : State} (f : RxFrame u t) : SameCells u.TXB t.TXB :=
  fun a => congrArg (Memory.read · a) f.TXB

/-- Settles O31. -/
theorem startCallbackDrivesStartBit : Obligations.StartCallbackDrivesStartBit := by
  intro rx s b hs ha hc hp hrd hb
  have hu := txTimerStep_of_start ha hc hp (loadCell_of_read hrd hb) (noResponse s)
  obtain ⟨t, hexec, f⟩ := exec_quiet_tick_of_txTimerStep hs hu rx
  exact ⟨t, hexec, f.tx_out, f.tx_shift, f.tx_pos, f.tx_armed, f.tx_cnt, f.tx_busy, f.sameCells_TXB, f.tx_len, f.tx_rd,
    f.tx_oe⟩

/-- Settles O32. -/
theorem dataCallbackDrivesBitK : Obligations.DataCallbackDrivesBitK := by
  intro rx s k hs ha hc hp
  obtain ⟨t, hexec, f⟩ := exec_quiet_tick_of_txTimerStep hs (txTimerStep_of_data ha hc hp (noResponse s)) rx
  have hpos : t.tx_pos = nextTxPos k := f.tx_pos
  exact ⟨t, hexec, f.tx_out, fun j hj => hpos.trans (nextTxPos_of_lt hj), fun h7 => hpos.trans (nextTxPos_last h7),
    f.tx_armed, f.tx_cnt, f.tx_busy, f.sameCells_TXB, f.tx_len, f.tx_rd, f.tx_shift, f.tx_oe⟩

/-- Settles O33: the run goes on exactly when a byte is queued behind the one sent. -/
theorem stopCallbackAdvancesOrEnds : Obligations.StopCallbackAdvancesOrEnds := by
  intro rx s hs ha hc hp
  obtain hmore | hlast := Nat.lt_or_ge (s.tx_rd + 1) s.tx_len
  · have hu := txTimerStep_of_stop_more ha hc hp hmore (noResponse s)
    obtain ⟨t, hexec, f⟩ := exec_quiet_tick_of_txTimerStep hs hu rx
    exact ⟨t, hexec, f.tx_out, f.tx_pos, fun _ => ⟨f.tx_rd, f.tx_armed, f.tx_cnt, f.tx_busy, f.tx_len⟩,
      fun hlast => absurd hmore (Nat.not_lt.mpr hlast), f.sameCells_TXB, f.tx_shift, f.tx_oe⟩
  · have hu := txTimerStep_of_stop_last ha hc hp hlast (noResponse s)
    obtain ⟨t, hexec, f⟩ := exec_quiet_tick_of_txTimerStep hs hu rx
    exact ⟨t, hexec, f.tx_out, f.tx_pos, fun hmore => absurd hmore (Nat.not_lt.mpr hlast),
      fun _ => ⟨f.tx_busy, f.tx_armed, f.tx_rd, f.tx_len, f.tx_cnt⟩, f.sameCells_TXB, f.tx_shift, f.tx_oe⟩

/-! ## The level of the transmit pin (O39, O48) -/

/-- A transmit timer step that does not fire leaves the pin (R106, R138). -/
theorem txTimerStep_tx_out {s u : State} (hu : txTimerStep s (noResponse s) = .ok u) :
    u.tx_out = s.tx_out ∨ (s.tx_armed = true ∧ s.tx_cnt = 1) := by
  cases ha : s.tx_armed with
  | false =>
    rw [txTimerStep_of_not_armed ha] at hu
    cases hu
    exact .inl rfl
  | true =>
    by_cases hc : s.tx_cnt = 1
    · exact .inr ⟨rfl, hc⟩
    · rw [txTimerStep_of_counting ha hc] at hu
      cases hu
      exact .inl rfl

/-- Settles O39: of what a TICK can be, only the engines' steps write the pin, and of these only a callback. -/
theorem pinChangesOnlyWhenTransmitTimerFires : Obligations.PinChangesOnlyWhenTransmitTimerFires := by
  intro rx ftx frx s t ht hne
  obtain ⟨-, rfl⟩ | ⟨-, -, rfl⟩ | ⟨hs, -, u, hu, rfl⟩ := exec_tick_cases ht
  · exact absurd rfl hne
  · exact absurd rfl hne
  · rw [(receiveSteps_frame s rx u).tx_out] at hne
    exact ⟨hs, (txTimerStep_tx_out hu).resolve_left hne⟩

/-- While Configured the line is high whenever the next transmit callback is a start bit. -/
def HighBeforeStartBit (s : State) : Prop := s.sess = .configured → s.tx_pos = .start → s.tx_out = true

/-- A callback that leaves the position at Start is a stop bit, which drives the line high (R137). -/
theorem HighBeforeStartBit.txTimerStep {s u : State} (h : HighBeforeStartBit s)
    (hu : txTimerStep s (noResponse s) = .ok u) : HighBeforeStartBit u := by
  obtain ⟨-, rfl⟩ | ⟨-, -, rfl⟩ | ⟨-, -, -, b, -, rfl⟩ | ⟨-, -, k, -, rfl⟩ | ⟨-, -, -, -, rfl⟩ | ⟨-, -, -, -, rfl⟩ :=
    txTimerStep_cases hu
  · exact h
  · exact h
  · exact nofun
  · exact fun _ hpos => absurd hpos (nextTxPos_ne_start k)
  · exact fun _ _ => rfl
  · exact fun _ _ => rfl

theorem HighBeforeStartBit.exec_tick {rx ftx frx : Bool} {s t : State} (h : HighBeforeStartBit s)
    (ht : exec (.tick rx ftx frx) s = .next t) : HighBeforeStartBit t := by
  obtain ⟨-, rfl⟩ | ⟨-, -, rfl⟩ | ⟨-, -, u, hu, rfl⟩ := exec_tick_cases ht
  · exact h
  · exact nofun
  · have f := receiveSteps_frame s rx u
    rw [HighBeforeStartBit, f.sess, f.tx_pos, f.tx_out]
    exact h.txTimerStep hu

theorem HighBeforeStartBit.exec {i : Instr} {s t : State} (h : HighBeforeStartBit s) (ht : exec i s = .next t) :
    HighBeforeStartBit t := by
  cases i with
  | tick rx ftx frx => exact h.exec_tick ht
  | configure w1 w2 w3 w4 w5 w6 w7 =>
    obtain ⟨-, rfl | rfl | ⟨-, -, p, -, rfl⟩⟩ := exec_configure_cases ht
    · exact h
    · exact h
    · exact fun _ _ => rfl
  | write n payload =>
    obtain ⟨m, len, r, rfl | rfl⟩ := exec_write_frame ht
    · exact h
    · exact fun _ _ => rfl
  | read max =>
    obtain ⟨m, len, r, rfl⟩ := exec_read_frame ht
    exact h
  | teardown =>
    rw [HighBeforeStartBit, exec_teardown_sess ht]
    exact nofun

/-- Settles O48: no port has a part in the line's level, so taking a step from the input keeps it too. -/
theorem stepKeepsIdleLineHigh : Obligations.StepKeepsIdleLineHigh := by
  constructor
  · intro s t h ht
    obtain ⟨-, rfl⟩ | ⟨p, rest, i, -, -, hexec⟩ := step_cases ht
    · exact h
    · exact HighBeforeStartBit.exec (s := s.accept p rest) h hexec
  · intro s h hs hidle
    obtain ⟨-, htx, -⟩ := (blockInv_iff_of_configured hs).mp h
    obtain ⟨-, -, hpos⟩ := htx.idle hidle
    exact hpos

end Sys2Proof.Machine

/-! # The receive engine (O29, O34, O35, O36, O37, O57)

The edge step acts on an idle engine and the timer step on a byte in progress, never both in one tick (R113). So a tick
starts a byte, or takes one of its samples, or waits, and a byte is followed tick by tick from its edge event on. -/

namespace Sys2Proof.Machine

/-! ## A tick completes (O29) -/

/-- While Configured a tick that no scheduling fault takes completes, with the engines' writes (R110, R112, R113). -/
theorem BlockInv.exec_tick_of_no_fault {s : State} (h : BlockInv s) (hs : s.sess = .configured) {ftx frx : Bool}
    (hf : schedFault s ftx frx = false) (rx : Bool) :
    ∃ u, txTimerStep s (Machine.noResponse s) = .ok u ∧
      Machine.exec (.tick rx ftx frx) s = .next (prevUpdate rx (Machine.edgeStep s rx (rxTimerStep s rx u))) := by
  obtain ⟨u, hu, hexec⟩ := h.exec_quiet_tick hs rx
  rw [exec_tick_of_engines hs (schedFault_quiet s)] at hexec
  exact ⟨u, hu, (exec_tick_of_engines hs hf rx).trans hexec⟩

/-- Settles O29: nothing runs outside Configured, a scheduling fault takes the tick whole, and otherwise the
previous-sample update comes last. -/
theorem tickCompletesFromEveryInvariantState : Obligations.TickCompletesFromEveryInvariantState := by
  intro rx ftx frx s h
  by_cases hs : s.sess = .configured
  · cases hf : schedFault s ftx frx with
    | true => exact ⟨_, exec_tick_of_fault hs hf rx, rfl, nofun⟩
    | false =>
      obtain ⟨u, hu, hexec⟩ := h.exec_tick_of_no_fault hs hf rx
      have f := txTimerStep_frame hu
      have g := receiveSteps_frame s rx u
      exact ⟨_, hexec, g.rsp.trans f.rsp, fun _ _ => ⟨g.sess.trans (f.sess.trans hs), rfl, rfl⟩⟩
  · exact ⟨_, exec_tick_of_not_configured hs rx ftx frx, rfl, fun hconf => absurd hconf hs⟩

/-- A tick without fault inputs leaves the session Configured (R112). -/
theorem exec_quiet_tick_sess {rx : Bool} {s t : State} (hs : s.sess = .configured)
    (ht : exec (.tick rx false false) s = .next t) : t.sess = .configured := by
  obtain ⟨u, hu, rfl⟩ := exec_quiet_tick_steps hs ht
  exact (receiveSteps_frame s rx u).sess.trans ((txTimerStep_frame hu).sess.trans hs)

/-! ## The edge step (O34, O35) -/

theorem rxTimerStep_of_not_armed {pre : State} (ha : pre.rx_armed = false) (x : Bool) (u : State) :
    rxTimerStep pre x u = u := by
  simp [rxTimerStep, rxFires, ha]

/-- The edge event (R161). -/
theorem edgeStep_of_taken {pre : State} {rx : Bool} (ht : edgeTaken pre rx = true) (u : State) :
    edgeStep pre rx u = { u with
      edge_en := false, rx_acc := 0, rx_count := 0, edge_pending := false
      rx_armed := true, rx_cnt := pre.bit_period } := by
  rw [edgeStep, if_pos ht]
  rfl

/-- With edge delivery on, no edge is masked, so without an edge event the edge step does nothing (R160, R162). -/
theorem edgeStep_of_no_edge {pre : State} {rx : Bool} (he : pre.edge_en = true) (ht : edgeTaken pre rx = false)
    (u : State) : edgeStep pre rx u = u := by
  simp [edgeStep, edgeLatched, he, ht]

/-- With edge delivery off, the edge step can set the pending bit alone (R162). -/
theorem edgeStep_edge_pending_of_masked {pre : State} (he : pre.edge_en = false) (rx : Bool) (u : State) :
    (edgeStep pre rx u).edge_pending = (u.edge_pending || edgeLatched pre rx) := by
  have ht : edgeTaken pre rx = false := by simp [edgeTaken, he]
  cases hl : edgeLatched pre rx <;> simp [edgeStep, ht, hl]

/-- The transmit step leaves the receive engine (R109). -/
theorem TxFrame.sameReceive {u t : State} (f : TxFrame u t) : SameReceive u t :=
  ⟨⟨fun a => congrArg (Memory.read · a) f.RXB, f.rx_len, f.rx_acc, f.rx_count, f.edge_en, f.rx_armed, f.edge_pending⟩,
    f.rx_cnt, f.rx_prev, f.rx_prev_valid⟩

/-- With edge delivery on the sample timer is off (R50 item 8), so of the receive steps the edge step alone can act. -/
theorem BlockInv.exec_idle_tick {s : State} (h : BlockInv s) (hs : s.sess = .configured) (he : s.edge_en = true)
    (rx : Bool) :
    ∃ u, SameReceive s u ∧ Machine.exec (.tick rx false false) s = .next (prevUpdate rx (Machine.edgeStep s rx u)) := by
  obtain ⟨-, -, hrx⟩ := (blockInv_iff_of_configured hs).mp h
  have ha : s.rx_armed = false := by simpa [he] using hrx.edge
  obtain ⟨u, hu, hexec⟩ := h.exec_quiet_tick hs rx
  rw [rxTimerStep_of_not_armed ha] at hexec
  exact ⟨u, (txTimerStep_frame hu).sameReceive, hexec⟩

/-- Settles O34. -/
theorem edgeEventStartsAByte : Obligations.EdgeEventStartsAByte := by
  intro rx s h hs he
  obtain ⟨u, ⟨hsame, hcnt, -, -⟩, hexec⟩ := h.exec_idle_tick hs he rx
  refine ⟨_, hexec, fun hedge => ?_, fun hno hpending => ?_⟩
  · have ht : edgeTaken s rx = true := by simpa [he] using hedge
    obtain ⟨cells, len, -⟩ := hsame
    rw [edgeStep_of_taken ht]
    exact ⟨rfl, rfl, rfl, rfl, rfl, rfl, len, cells⟩
  · have ht : edgeTaken s rx = false := by
      rw [← Bool.not_eq_true, edgeTaken_eq_true, fall_eq_true]
      simp [hno, hpending]
    rw [edgeStep_of_no_edge he ht]
    exact ⟨hsame, hcnt⟩

/-- Settles O35: whatever the timer step does, the commit included, it leaves the pending bit to the edge step. -/
theorem maskedEdgeIsKeptOnlyWithTheParameter : Obligations.MaskedEdgeIsKeptOnlyWithTheParameter := by
  intro rx s h hs he
  obtain ⟨u, hu, hexec⟩ := h.exec_quiet_tick hs rx
  obtain ⟨hpending, -⟩ := rxTimerStep_flags (txTimerStep_frame hu) rx
  refine ⟨_, hexec, ?_⟩
  rw [prevUpdate_edge_pending, edgeStep_edge_pending_of_masked he, hpending]
  simp [edgeLatched, fall, he, Bool.and_comm]

/-! ## The samples (O36, O37) -/

section

variable {pre : State} (ha : pre.rx_armed = true) (hc : pre.rx_cnt = 1)

include ha hc

/-- A timer that fires takes a sample (R106). -/
theorem rxTimerStep_of_firing (x : Bool) (u : State) : rxTimerStep pre x u = rxSample pre x u :=
  if_pos ((rxFires_eq_true pre).mpr ⟨ha, hc⟩)

/-- R164. -/
theorem rxTimerStep_of_sample (h7 : pre.rx_count.val < 7) (x : Bool) (u : State) :
    rxTimerStep pre x u = { u with
      rx_acc := shiftIn pre.rx_acc x, rx_count := ⟨pre.rx_count.val + 1, Nat.succ_lt_succ h7⟩
      rx_armed := true, rx_cnt := pre.bit_period } := by
  rw [rxTimerStep_of_firing ha hc, rxSample, dif_pos (Nat.succ_lt_succ h7)]
  rfl

/-- The eighth sample completes the byte (R165, R166). -/
theorem rxTimerStep_of_eighth (h7 : pre.rx_count.val = 7) (x : Bool) (u : State) :
    rxTimerStep pre x u = rxCommit pre (shiftIn pre.rx_acc x) u := by
  rw [rxTimerStep_of_firing ha hc, rxSample, dif_neg (by omega)]

end

/-- R165. -/
theorem rxCommit_of_room {pre : State} (hroom : pre.rx_len < pre.params.RX_CAP) (b : Byte) (u : State) :
    rxCommit pre b u = { u with
      RXB := Memory.write pre.RXB pre.rx_len b, rx_len := pre.rx_len + 1
      rx_acc := 0, rx_count := 0, rx_armed := false, edge_en := true } := by
  simp only [rxCommit, if_pos hroom]
  rfl

/-- R166. -/
theorem rxCommit_of_full {pre : State} (hfull : pre.params.RX_CAP ≤ pre.rx_len) (b : Byte) (u : State) :
    rxCommit pre b u = { u with rx_acc := 0, rx_count := 0, rx_armed := false, edge_en := true } := by
  simp only [rxCommit, if_neg (Nat.not_lt.mpr hfull)]
  rfl

/-- The tick took the level `rx` as one of the first seven samples (R164). -/
structure SampleTaken (rx : Bool) (s t : State) : Prop where
  acc : t.rx_acc = shiftIn s.rx_acc rx
  count : t.rx_count.val = s.rx_count.val + 1
  armed : t.rx_armed = true
  cnt : t.rx_cnt = s.bit_period
  edge_en : t.edge_en = s.edge_en
  len : t.rx_len = s.rx_len
  cells : SameCells s.RXB t.RXB

/-- The tick took the eighth sample, which completed the byte `b` (R165, R166). -/
structure ByteCompleted (b : Byte) (s t : State) : Prop where
  acc : t.rx_acc = 0
  count : t.rx_count = 0
  armed : t.rx_armed = false
  edge_en : t.edge_en = true
  stored : s.rx_len < s.params.RX_CAP → t.rx_len = s.rx_len + 1 ∧ t.RXB = Memory.write s.RXB s.rx_len b
  dropped : s.params.RX_CAP ≤ s.rx_len → t.rx_len = s.rx_len ∧ SameCells s.RXB t.RXB

theorem rxCommit_byteCompleted {s u : State} (hsame : SameReceive s u) (b : Byte) :
    ByteCompleted b s (rxCommit s b u) := by
  obtain ⟨⟨cells, len, -⟩, -⟩ := hsame
  obtain hroom | hfull := Nat.lt_or_ge s.rx_len s.params.RX_CAP
  · rw [rxCommit_of_room hroom]
    exact ⟨rfl, rfl, rfl, rfl, fun _ => ⟨rfl, rfl⟩, fun hfull => absurd hroom (Nat.not_lt.mpr hfull)⟩
  · rw [rxCommit_of_full hfull]
    exact ⟨rfl, rfl, rfl, rfl, fun hroom => absurd hroom (Nat.not_lt.mpr hfull), fun _ => ⟨len, cells⟩⟩

section

variable {s : State} (h : BlockInv s) (hs : s.sess = .configured) (ha : s.rx_armed = true)

include h hs ha

/-- A byte in progress has edge delivery off (R50 item 8), so beside the pending bit the timer step alone can act on the
receive engine. -/
theorem BlockInv.exec_armed_tick (rx : Bool) :
    ∃ u p, SameReceive s u ∧
      Machine.exec (.tick rx false false) s = .next (prevUpdate rx { rxTimerStep s rx u with edge_pending := p }) := by
  obtain ⟨-, -, hrx⟩ := (blockInv_iff_of_configured hs).mp h
  obtain ⟨u, hu, hexec⟩ := h.exec_quiet_tick hs rx
  obtain ⟨p, e⟩ := edgeStep_of_not_taken (hrx.edgeTaken_of_armed ha rx) (rxTimerStep s rx u)
  exact ⟨u, p, (txTimerStep_frame hu).sameReceive, e ▸ hexec⟩

theorem BlockInv.exec_waiting_tick (hc : s.rx_cnt ≠ 1) (rx : Bool) :
    ∃ t, Machine.exec (.tick rx false false) s = .next t ∧ ReceiveWaited 1 s t := by
  obtain ⟨u, hu, hexec⟩ := h.exec_quiet_tick hs rx
  exact ⟨_, hexec, (h.waitingTick hs hu rx).receive ha hc⟩

theorem BlockInv.exec_sample_tick (hc : s.rx_cnt = 1) (h7 : s.rx_count.val < 7) (rx : Bool) :
    ∃ t, Machine.exec (.tick rx false false) s = .next t ∧ SampleTaken rx s t := by
  obtain ⟨u, p, ⟨⟨cells, len, -, -, edge, -, -⟩, -⟩, hexec⟩ := h.exec_armed_tick hs ha rx
  rw [rxTimerStep_of_sample ha hc h7] at hexec
  exact ⟨_, hexec, rfl, rfl, rfl, rfl, edge, len, cells⟩

theorem BlockInv.exec_eighth_tick (hc : s.rx_cnt = 1) (h7 : s.rx_count.val = 7) (rx : Bool) :
    ∃ t, Machine.exec (.tick rx false false) s = .next t ∧ ByteCompleted (shiftIn s.rx_acc rx) s t := by
  obtain ⟨u, p, hsame, hexec⟩ := h.exec_armed_tick hs ha rx
  rw [rxTimerStep_of_eighth ha hc h7] at hexec
  exact ⟨_, hexec, { rxCommit_byteCompleted hsame (shiftIn s.rx_acc rx) with }⟩

end

/-- Settles O36. -/
theorem sampleShiftsIntoTheAccumulator : Obligations.SampleShiftsIntoTheAccumulator := by
  intro rx s h hs ha hc h7
  obtain ⟨t, hexec, acc, count, armed, cnt, edge, len, cells⟩ := h.exec_sample_tick hs ha hc h7 rx
  exact ⟨t, hexec, acc ▸ shiftIn_top _ _, acc ▸ shiftIn_low _ _, count, armed, cnt, edge, len, cells⟩

/-- Settles O37. -/
theorem eighthSampleCommitsOrDrops : Obligations.EighthSampleCommitsOrDrops := by
  intro rx s h hs ha hc h7
  obtain ⟨t, hexec, acc, count, armed, edge, stored, dropped⟩ := h.exec_eighth_tick hs ha hc h7 rx
  refine ⟨t, shiftIn s.rx_acc rx, hexec, shiftIn_top _ _, shiftIn_low _ _, acc, count, armed, edge, fun hroom => ?_,
    fun hfull => dropped (Nat.le_of_eq hfull.symm)⟩
  obtain ⟨len, hRXB⟩ := stored hroom
  rw [hRXB]
  exact ⟨len, read_write_same _ _ _, fun a hne => read_write_other _ _ hne⟩

/-! ## The sample timeline (O57)

A byte is followed by the levels of the ticks since its edge event: the `n` samples taken so far are those of the ticks
P, 2·P, ..., n·P, and they stand in the top `n` bits of the accumulator, the oldest lowest. -/

/-- The top `n` bits of `acc` are the levels of the first `n` sample ticks. -/
def SampledBits (P : Nat) (levels : List Bool) (n : Nat) (acc : Byte) : Prop :=
  ∀ k, k < n → levels[(k + 1) * P - 1]? = some (acc.getLsbD (8 - n + k))

theorem getElem?_concat_of_some {l : List Bool} {i : Nat} {x : Bool} (h : l[i]? = some x) (y : Bool) :
    (l ++ [y])[i]? = some x := by
  obtain ⟨hi, -⟩ := List.getElem?_eq_some_iff.mp h
  rwa [List.getElem?_append_left hi]

/-- One more tick leaves the samples taken. -/
theorem SampledBits.wait {P n : Nat} {levels : List Bool} {acc : Byte} (h : SampledBits P levels n acc) (rx : Bool) :
    SampledBits P (levels ++ [rx]) n acc :=
  fun k hk => getElem?_concat_of_some (h k hk) rx

/-- The sample of tick (n + 1)·P comes in from the top (R164). -/
theorem SampledBits.sample {P n : Nat} {levels : List Bool} {acc : Byte} (h : SampledBits P levels n acc) (hn : n < 8)
    (hlen : levels.length + 1 = P * (n + 1)) (rx : Bool) :
    SampledBits P (levels ++ [rx]) (n + 1) (shiftIn acc rx) := by
  intro k hk
  obtain hlt | rfl := Nat.lt_succ_iff_lt_or_eq.mp hk
  · rw [shiftIn_low _ _ _ (by omega), show 8 - (n + 1) + k + 1 = 8 - n + k by omega]
    exact h.wait rx k hlt
  · rw [show 8 - (k + 1) + k = 7 by omega, shiftIn_top, Nat.mul_comm, ← hlen]
    exact List.getElem?_concat_length

/-- `t` is the state after the ticks `levels` from the edge event that left `s`, the byte still in progress. -/
structure Sampling (s : State) (levels : List Bool) (t : State) : Prop where
  params : t.params = s.params
  period : t.bit_period = s.bit_period
  armed : t.rx_armed = true
  len : t.rx_len = s.rx_len
  cells : SameCells s.RXB t.RXB
  due : levels.length + t.rx_cnt = s.bit_period * (t.rx_count.val + 1)
  bits : SampledBits s.bit_period levels t.rx_count.val t.rx_acc

/-- The edge event arms the timer for the first sample (R161). -/
theorem Sampling.of_edge {s : State} (ha : s.rx_armed = true) (h0 : s.rx_count = 0) (hc : s.rx_cnt = s.bit_period) :
    Sampling s [] s where
  params := rfl
  period := rfl
  armed := ha
  len := rfl
  cells := fun _ => rfl
  due := by simp [h0, hc]
  bits := by simp [SampledBits, h0]

/-- A tick that goes on with the byte, by what it may change. -/
theorem Sampling.next {s t t' : State} {levels : List Bool} {rx : Bool} (h : Sampling s levels t)
    (hexec : exec (quietTick rx) t = .next t') (armed : t'.rx_armed = true) (len : t'.rx_len = t.rx_len)
    (cells : SameCells t.RXB t'.RXB) (due : levels.length + 1 + t'.rx_cnt = s.bit_period * (t'.rx_count.val + 1))
    (bits : SampledBits s.bit_period (levels ++ [rx]) t'.rx_count.val t'.rx_acc) : Sampling s (levels ++ [rx]) t' := by
  obtain ⟨⟨params, -⟩, -, -, -, period, -⟩ := exec_tick_fixed hexec
  exact {
    params := params.trans h.params
    period := period.trans h.period
    armed := armed
    len := len.trans h.len
    cells := fun a => (cells a).trans (h.cells a)
    due := by rwa [List.length_append, List.length_singleton]
    bits := bits }

section

variable {s t : State} {levels : List Bool} (h : Sampling s levels t) (ht : BlockInv t) (hts : t.sess = .configured)

include h ht hts

/-- A tick before tick 8·P waits or takes one of the first seven samples. -/
theorem Sampling.exec_quiet_tick (hlen : levels.length + 1 < 8 * s.bit_period) (rx : Bool) :
    ∃ t', exec (quietTick rx) t = .next t' ∧ Sampling s (levels ++ [rx]) t' := by
  have hdue := h.due
  by_cases hc : t.rx_cnt = 1
  · rw [hc] at hdue
    have h7 : t.rx_count.val < 7 := by
      refine Nat.lt_of_le_of_ne (Nat.le_of_lt_succ t.rx_count.isLt) fun h7 => ?_
      rw [h7] at hdue
      omega
    obtain ⟨t', hexec, acc, count, armed, cnt, -, len, cells⟩ := ht.exec_sample_tick hts h.armed hc h7 rx
    refine ⟨t', hexec, h.next hexec armed len cells ?_ ?_⟩
    · rw [count, cnt, h.period, Nat.mul_succ, hdue]
    · rw [acc, count]
      exact h.bits.sample (Nat.lt_succ_of_lt h7) hdue rx
  · obtain ⟨-, -, hrx⟩ := (blockInv_iff_of_configured hts).mp ht
    have ⟨hpos, _⟩ := hrx.cnt h.armed
    obtain ⟨t', hexec, armed, acc, count, len, cells, -, cnt⟩ := ht.exec_waiting_tick hts h.armed hc rx
    refine ⟨t', hexec, h.next hexec armed len cells ?_ ?_⟩
    · rw [count, cnt, ← hdue]
      omega
    · rw [acc, count]
      exact h.bits.wait rx

/-- Between two samples the bit period of the last one runs (R106). -/
theorem Sampling.count_eq_div : t.rx_count.val = levels.length / s.bit_period := by
  obtain ⟨-, -, hrx⟩ := (blockInv_iff_of_configured hts).mp ht
  have ⟨hlo, hhi⟩ := hrx.cnt h.armed
  have hdue := h.due
  rw [h.period] at hhi
  rw [Nat.mul_succ, Nat.mul_comm] at hdue
  exact (Nat.div_eq_of_lt_le (by omega) (by rw [Nat.succ_mul]; omega)).symm

/-- Tick 8·P takes the eighth sample. -/
theorem Sampling.eighth_due (hlen : levels.length + 1 = 8 * s.bit_period) :
    t.rx_cnt = 1 ∧ t.rx_count.val = 7 := by
  obtain ⟨-, -, hrx⟩ := (blockInv_iff_of_configured hts).mp ht
  have ⟨hpos, _⟩ := hrx.cnt h.armed
  have hdue := h.due
  have hP : 0 < s.bit_period := by omega
  have hle : 8 ≤ t.rx_count.val + 1 := Nat.le_of_mul_le_mul_left (by omega) hP
  have h7 : t.rx_count.val = 7 := by omega
  rw [h7] at hdue
  exact ⟨by omega, h7⟩

end

/-- Ticks that do not reach tick 8·P leave the byte in progress, for every stimulus. -/
theorem Sampling.runTicks {s t : State} {before : List Bool} (h : Sampling s before t) (ht : BlockInv t)
    (hts : t.sess = .configured) (levels : List Bool) (hlen : before.length + levels.length < 8 * s.bit_period) :
    ∃ t', Machine.runTicks levels t = .next t' ∧ BlockInv t' ∧ t'.sess = .configured ∧
      Sampling s (before ++ levels) t' := by
  induction levels generalizing t before with
  | nil => exact ⟨t, rfl, ht, hts, (List.append_nil before).symm ▸ h⟩
  | cons rx levels ih =>
    rw [List.length_cons] at hlen
    obtain ⟨v, hexec, hnext⟩ := h.exec_quiet_tick ht hts (by omega) rx
    have hlen' : (before ++ [rx]).length + levels.length < 8 * s.bit_period := by
      rw [List.length_append, List.length_singleton]
      omega
    obtain ⟨t', hrun, ht', hts', hafter⟩ := ih hnext (ht.exec_tick hexec) (exec_quiet_tick_sess hts hexec) hlen'
    rw [List.append_assoc, List.singleton_append] at hafter
    exact ⟨t', (runInstrs_cons hexec).trans hrun, ht', hts', hafter⟩

/-- Before tick 8·P the byte that an edge event started is in progress. -/
theorem BlockInv.runTicks_sampling {s : State} (h : BlockInv s) (hs : s.sess = .configured) (hstart : Sampling s [] s)
    (levels : List Bool) (hlen : levels.length < 8 * s.bit_period) :
    ∃ t, runTicks levels s = .next t ∧ BlockInv t ∧ t.sess = .configured ∧ Sampling s levels t :=
  hstart.runTicks h hs levels (by rwa [List.length_nil, Nat.zero_add])

/-- Settles O57: tick 8·P is the eighth sample of the byte that the ticks before it left in progress. -/
theorem sampleTimeline : Obligations.SampleTimeline := by
  intro s levels h hs ha h0 hc
  have hstart := Sampling.of_edge ha h0 hc
  obtain ⟨hset, -, -⟩ := (blockInv_iff_of_configured hs).mp h
  have hP := hset.period_pos
  refine ⟨fun hlen => ?_, fun hlen => ?_⟩
  · obtain ⟨t, hrun, ht, hts, hsampling⟩ := h.runTicks_sampling hs hstart levels hlen
    obtain ⟨-, -, hrx⟩ := (blockInv_iff_of_configured hts).mp ht
    have hedge : t.edge_en = false := hrx.edge.trans (congrArg not hsampling.armed)
    exact ⟨t, hrun, hsampling.armed, hedge, hsampling.count_eq_div ht hts, hsampling.len, hsampling.cells⟩
  · have hne : levels ≠ [] := List.ne_nil_of_length_pos (by omega)
    obtain ⟨before, rx, rfl⟩ : ∃ before rx, levels = before ++ [rx] :=
      ⟨_, _, (List.dropLast_concat_getLast hne).symm⟩
    rw [List.length_append, List.length_singleton] at hlen
    obtain ⟨t, hrun, ht, hts, hsampling⟩ := h.runTicks_sampling hs hstart before (by omega)
    obtain ⟨hc1, h7⟩ := hsampling.eighth_due ht hts hlen
    obtain ⟨t', hexec, -, -, armed, edge, stored, dropped⟩ := ht.exec_eighth_tick hts hsampling.armed hc1 h7 rx
    have hbits := hsampling.bits
    rw [h7] at hbits
    have hbyte := hbits.sample (by omega) (by omega) rx
    rw [hsampling.params, hsampling.len] at stored dropped
    refine ⟨t', shiftIn t.rx_acc rx, (runTicks_concat hrun).trans hexec, armed, edge, fun k hk => ?_, fun hroom => ?_,
      fun hfull => ?_⟩
    · simpa using hbyte k hk
    · obtain ⟨len, hRXB⟩ := stored hroom
      exact ⟨len, hRXB ▸ read_write_same _ _ _⟩
    · obtain ⟨len, cells⟩ := dropped (Nat.le_of_eq hfull.symm)
      exact ⟨len, fun a => (cells a).trans (hsampling.cells a)⟩

end Sys2Proof.Machine

/-! # The host commands (O12, O13, O14, O18, O19, O20, O21, O22, O23)

CONFIGURE and READ make their checks in a fixed order, so each has one equation for every place where its checks can
end. A command that completes either writes the response port alone or takes its one effect: a new session, the append,
the drain, the end of the session. -/

namespace Sys2Proof.Machine

/-! ## CONFIGURE (O12, O13, O14) -/

theorem pinsValid_eq_false (a b : Word) : pinsValid a b = false ↔ a.toInt < 0 ∨ b.toInt < 0 ∨ a = b := by
  rw [← Bool.not_eq_true, pinsValid_eq_true]
  simp only [Decidable.not_and_iff_not_or_not, Int.not_le, ne_eq, Decidable.not_not]

section

variable {w1 w2 w3 w4 w5 w6 w7 : Word} {s : State}

/-- A session that exists is not configured again (R191). -/
theorem exec_configure_of_session (hs : s.sess ≠ .unconfigured) :
    exec (.configure w1 w2 w3 w4 w5 w6 w7) s = .refused .alreadyConfigured := by
  simp only [exec, execConfigure]
  split
  · contradiction
  · rfl
  · rfl

variable (hs : s.sess = .unconfigured)

include hs

/-- The reserved operands are not read (R194). -/
theorem exec_configure_of_unconfigured :
    exec (.configure w1 w2 w3 w4 w5 w6 w7) s = configureNew w1 w2 w3 s := by
  simp only [exec, execConfigure, hs]

theorem exec_configure_of_bad_pins (hp : pinsValid w1 w2 = false) :
    exec (.configure w1 w2 w3 w4 w5 w6 w7) s = .next (respond .invalidConfiguration 0 [] s) := by
  simp [exec_configure_of_unconfigured hs, configureNew, hp]

variable (hp : pinsValid w1 w2 = true)

include hp

/-- R192. -/
theorem exec_configure_of_failed_acquisition (ha : s.acq_ok = false) :
    exec (.configure w1 w2 w3 w4 w5 w6 w7) s = .next (respond .resourceUnavailable 0 [] s) := by
  simp [exec_configure_of_unconfigured hs, configureNew, hp, ha]

variable (ha : s.acq_ok = true)

include ha

theorem exec_configure_of_baud_not_positive (hb : w3.toInt ≤ 0) :
    exec (.configure w1 w2 w3 w4 w5 w6 w7) s = .next (respond .invalidConfiguration 0 [] s) := by
  simp [exec_configure_of_unconfigured hs, configureNew, hp, ha, signed, bitPeriod_of_nonpos hb]

/-- R102. -/
theorem exec_configure_of_baud_too_fast (hb : 1000000 < w3.toInt) :
    exec (.configure w1 w2 w3 w4 w5 w6 w7) s = .refused .zeroBitPeriod := by
  simp [exec_configure_of_unconfigured hs, configureNew, hp, ha, signed, bitPeriod_of_too_fast hb]

/-- R193. -/
theorem exec_configure_of_legal (hb : 1 ≤ w3.toInt) (hb' : w3.toInt ≤ 1000000) :
    exec (.configure w1 w2 w3 w4 w5 w6 w7) s =
      .next (respond .ok 0 [] (initSession w1 w2 w3 (1000000 / w3.toInt.toNat) s)) := by
  simp [exec_configure_of_unconfigured hs, configureNew, hp, ha, signed, bitPeriod_of_legal hb hb']

end

/-- Settles O12. -/
theorem configureChecksInOrder : Obligations.ConfigureChecksInOrder := by
  intro w1 w2 w3 w4 w5 w6 w7 s
  refine ⟨exec_configure_of_session, fun hs => ⟨fun hbad => ?_, fun h1 h2 hne => ?_⟩⟩
  · exact exec_configure_of_bad_pins hs ((pinsValid_eq_false w1 w2).mpr hbad)
  · have hp : pinsValid w1 w2 = true := (pinsValid_eq_true w1 w2).mpr ⟨h1, h2, hne⟩
    exact ⟨exec_configure_of_failed_acquisition hs hp, fun ha => ⟨exec_configure_of_baud_not_positive hs hp ha,
      exec_configure_of_baud_too_fast hs hp ha, exec_configure_of_legal hs hp ha⟩⟩

/-- Settles O13: the session that the last check leads to holds R193's values. -/
theorem configureStartsASession : Obligations.ConfigureStartsASession := by
  intro w1 w2 w3 w4 w5 w6 w7 s hs ha h1 h2 hne hb hb'
  have hp : pinsValid w1 w2 = true := (pinsValid_eq_true w1 w2).mpr ⟨h1, h2, hne⟩
  exact exec_configure_of_legal hs hp ha hb hb'

/-- Settles O14: an error writes the response port alone, and a new session writes no buffer. -/
theorem configureFrame : Obligations.ConfigureFrame := by
  intro w1 w2 w3 w4 w5 w6 w7 s t ht
  obtain ⟨-, rfl | rfl | ⟨-, -, p, -, rfl⟩⟩ := exec_configure_cases ht
  · exact ⟨⟨rfl, rfl, rfl, rfl⟩, fun _ => rfl, fun _ => rfl, rfl, fun _ => rfl⟩
  · exact ⟨⟨rfl, rfl, rfl, rfl⟩, fun _ => rfl, fun _ => rfl, rfl, fun _ => rfl⟩
  · exact ⟨⟨rfl, rfl, rfl, rfl⟩, fun _ => rfl, fun _ => rfl, rfl, fun hne => absurd rfl hne⟩

/-! ## WRITE (O18) -/

/-- The append makes the queue longer by the payload, with START and without (R133). -/
theorem txAppend_tx_len (payload : List Byte) (s : State) :
    (txAppend payload s).tx_len = s.tx_len + payload.length := by
  cases hb : s.tx_busy with
  | true => rw [txAppend_busy payload hb]
  | false => rw [txAppend_idle payload hb]

/-- Settles O18. -/
theorem writeCountIsAllOrNone : Obligations.WriteCountIsAllOrNone := by
  intro n payload s t ht
  obtain ⟨hlen, ⟨-, rfl⟩ | ⟨-, rfl⟩⟩ := exec_write_cases ht
  · exact ⟨_, rfl, rfl, nofun, fun _ => ⟨rfl, rfl, fun _ => rfl⟩⟩
  · obtain ⟨h0, e⟩ | ⟨-, -, e⟩ | ⟨-, -, -, e⟩ | ⟨-, -, -, e⟩ := enqueue_cases n payload s <;> rw [e]
    · obtain rfl : n = 0 := BitVec.eq_of_toNat_eq h0
      exact ⟨_, rfl, rfl, fun _ => ⟨rfl, rfl⟩, fun hne => absurd rfl hne⟩
    · exact ⟨_, rfl, rfl, nofun, fun _ => ⟨rfl, rfl, fun _ => rfl⟩⟩
    · exact ⟨_, rfl, rfl, nofun, fun _ => ⟨rfl, rfl, fun _ => rfl⟩⟩
    · have hgrown : (txAppend payload s).tx_len = s.tx_len + n.toNat := hlen ▸ txAppend_tx_len payload s
      exact ⟨_, rfl, rfl, fun _ => ⟨rfl, hgrown⟩, fun hne => absurd rfl hne⟩

/-! ## READ (O19, O20, O21) -/

section

variable {s : State} {max : Half} (hs : s.sess = .configured)

include hs

theorem exec_read_of_configured : exec (.read max) s = readConfigured max s := by
  simp only [exec, execRead, hs]

/-- R201. -/
theorem exec_read_of_nothing (hk : readCount max s.rx_len = 0) :
    exec (.read max) s = .next (respond .ok 0 [] s) := by
  rw [exec_read_of_configured hs, readConfigured, if_pos hk]

variable (hk : readCount max s.rx_len ≠ 0)

include hk

/-- R200. -/
theorem exec_read_of_failed_copy (hx : s.xfer_ok = false) :
    exec (.read max) s = .next (respond .transferFault 0 [] s) := by
  simp [exec_read_of_configured hs, readConfigured, hk, hx]

/-- R198. -/
theorem exec_read_of_drain (hx : s.xfer_ok = true) {data : List Byte} {u : State}
    (hd : drain (readCount max s.rx_len) s = .ok (data, u)) :
    exec (.read max) s = .next (respond .ok (countOf (readCount max s.rx_len)) data u) := by
  simp [exec_read_of_configured hs, readConfigured, hk, hx, hd]

end

/-- Settles O20. -/
theorem readOfNothingAndFailedCopyOut : Obligations.ReadOfNothingAndFailedCopyOut := by
  intro max s hs
  refine ⟨fun hempty => exec_read_of_nothing hs ?_, fun hlen hmax hx => exec_read_of_failed_copy hs ?_ hx⟩
  · rw [readCount]
    omega
  · rw [readCount]
    omega

/-- Settles O19: the drain succeeds, since every valid cell exists and holds a byte. -/
theorem readReturnsTheOldestBytes : Obligations.ReadReturnsTheOldestBytes := by
  intro max s hs hx hk hcap hcells
  obtain ⟨data, u, hd⟩ := drain_succeeds (s := s) (Nat.min_le_right max.toNat s.rx_len) fun i hi =>
    ⟨Nat.lt_of_lt_of_le hi hcap, hcells i hi⟩
  obtain ⟨hlen, hdata, hmoved, -, hbeyond, hu⟩ := drain_ok (Nat.min_le_right _ _) hd
  refine ⟨u.RXB, data, ?_, hlen, hdata, hmoved, hbeyond⟩
  rw [exec_read_of_drain hs (Nat.one_le_iff_ne_zero.mp hk) hx hd, hu]
  rfl

/-- A READ that answers a next state writes the response port alone, or shortens RXB and leaves the cells beyond its
old valid length (R198-R201). -/
theorem exec_read_unchanged_or_shortened {max : Half} {s t : State} (ht : exec (.read max) s = .next t) :
    (∃ r, t = { s with rsp := r }) ∨
    ∃ m len r, len < s.rx_len ∧ (∀ a, s.rx_len ≤ a → Memory.read m a = Memory.read s.RXB a) ∧
      t = { s with RXB := m, rx_len := len, rsp := r } := by
  obtain ⟨-, rfl⟩ | ⟨-, ⟨-, rfl⟩ | ⟨-, -, rfl⟩ | ⟨hk, -, data, u, hd, rfl⟩⟩ := exec_read_cases ht
  · exact .inl ⟨_, rfl⟩
  · exact .inl ⟨_, rfl⟩
  · exact .inl ⟨_, rfl⟩
  · have hle : readCount max s.rx_len ≤ s.rx_len := Nat.min_le_right _ _
    obtain ⟨-, -, -, -, hbeyond, hu⟩ := drain_ok hle hd
    exact .inr ⟨u.RXB, s.rx_len - readCount max s.rx_len, _, by omega, hbeyond, congrArg (respond _ _ data) hu⟩

/-- Settles O21: a READ that leaves rx_len is one that did not shorten RXB. -/
theorem readFrame : Obligations.ReadFrame := by
  intro max s t ht
  obtain ⟨r, rfl⟩ | ⟨m, len, r, hlt, hbeyond, rfl⟩ := exec_read_unchanged_or_shortened ht
  · simp [SamePorts, SameSession, SameTransmit, SameTransmitButCount, SameCells]
  · have hne : len ≠ s.rx_len := Nat.ne_of_lt hlt
    simpa [SamePorts, SameSession, SameTransmit, SameTransmitButCount, SameCells, hne] using hbeyond

/-! ## TEARDOWN (O22, O23) -/

/-- R203. -/
theorem exec_teardown_of_unconfigured {s : State} (hs : s.sess = .unconfigured) :
    exec .teardown s = .next (respond .ok 0 [] s) := by
  rw [exec_teardown_eq, if_pos hs]

/-- The fields that TEARDOWN turns off first are among those it then discards (R202, R204). -/
theorem exec_teardown_of_session {s : State} (hs : s.sess ≠ .unconfigured) :
    exec .teardown s = .next (respond .ok 0 [] (discardSession s)) := by
  rw [exec_teardown_eq, if_neg hs, endSession_eq]

/-- Settles O22: what is left when a session is discarded are the after-TEARDOWN values. -/
theorem teardownReleasesAndResets : Obligations.TeardownReleasesAndResets :=
  fun _ => ⟨exec_teardown_of_unconfigured, exec_teardown_of_session⟩

/-- The response OK is there already after a command that answered it. -/
theorem respond_of_rsp_eq {s : State} {st : Status} {c : Half} {d : List Byte} (h : s.rsp = some ⟨st, c, d⟩) :
    respond st c d s = s := by
  rw [respond, ← h]

/-- Settles O23: the second TEARDOWN finds an Unconfigured session with the response OK in the port. -/
theorem teardownTwiceIsTeardownOnce : Obligations.TeardownTwiceIsTeardownOnce := by
  intro s
  have ht := exec_teardown_eq s
  have hrsp := exec_teardown_rsp ht
  have hsess := exec_teardown_sess ht
  exact ⟨_, ht, hrsp, hsess, by rw [exec_teardown_of_unconfigured hsess, respond_of_rsp_eq hrsp]⟩

end Sys2Proof.Machine

/-! # Refusals, errors and the Faulted session (O25, O26, O53)

An instruction ends outside its normal course in three ways: it is refused and there is no next state, it answers an
error and leaves all but the response port, or it finds a Faulted session, from which TEARDOWN alone leads out. -/

namespace Sys2Proof.Machine

/-! ## When an instruction is refused (O26) -/

/-- TICK is never refused (R110). -/
theorem exec_tick_ne_refused (rx ftx frx : Bool) (s : State) (r : Refusal) :
    exec (.tick rx ftx frx) s ≠ .refused r := by
  by_cases hs : s.sess = .configured
  · cases hf : schedFault s ftx frx with
    | true => simp [exec_tick_of_fault hs hf]
    | false =>
      rw [exec_tick_of_engines hs hf]
      cases tickEngines rx s <;> nofun
  · simp [exec_tick_of_not_configured hs]

/-- CONFIGURE is refused where a session exists (R191) and, after the checks of the pins and of the acquisition, where
the bit period would be 0 (R102). -/
theorem exec_configure_refused_iff {w1 w2 w3 w4 w5 w6 w7 : Word} {s : State} {r : Refusal} :
    exec (.configure w1 w2 w3 w4 w5 w6 w7) s = .refused r ↔
      (r = .alreadyConfigured ∧ s.sess ≠ .unconfigured) ∨
      (r = .zeroBitPeriod ∧ s.sess = .unconfigured ∧ s.acq_ok = true ∧ pinsValid w1 w2 = true ∧
        1000000 < w3.toInt) := by
  by_cases hs : s.sess = .unconfigured
  · cases hp : pinsValid w1 w2 with
    | false => simp [exec_configure_of_bad_pins hs hp, hs]
    | true =>
      cases ha : s.acq_ok with
      | false => simp [exec_configure_of_failed_acquisition hs hp ha, hs]
      | true =>
        obtain hb | ⟨hb, hb'⟩ | hb :
            w3.toInt ≤ 0 ∨ (1 ≤ w3.toInt ∧ w3.toInt ≤ 1000000) ∨ 1000000 < w3.toInt := by omega
        · have hslow : w3.toInt ≤ 1000000 := by omega
          simp [exec_configure_of_baud_not_positive hs hp ha hb, hs, hslow]
        · simp [exec_configure_of_legal hs hp ha hb hb', hs, hb']
        · simp [exec_configure_of_baud_too_fast hs hp ha hb, hs, hb, eq_comm (a := r)]
  · simp [exec_configure_of_session hs, hs, eq_comm (a := r)]

section

variable {s : State} {n : Half} {payload : List Byte} (hlen : payload.length = n.toNat)

include hlen

/-- R195. -/
theorem exec_write_of_unconfigured (hs : s.sess = .unconfigured) :
    exec (.write n payload) s = .refused .notConfigured := by
  simp [exec, execWrite, writeCount, hlen, hs]

/-- R241. -/
theorem exec_write_of_faulted (hs : s.sess = .faulted) :
    exec (.write n payload) s = .next (respond .schedulingFault 0 [] s) := by
  simp [exec, execWrite, writeCount, hlen, hs]

/-- A WRITE of N bytes is refused where there is no session, and nowhere else (R195). -/
theorem exec_write_refused_iff {r : Refusal} :
    exec (.write n payload) s = .refused r ↔ r = .notConfigured ∧ s.sess = .unconfigured := by
  cases hs : s.sess with
  | unconfigured => simp [exec_write_of_unconfigured hlen hs, eq_comm (a := r)]
  | configured => simp [exec_write_of_configured hs hlen]
  | faulted => simp [exec_write_of_faulted hlen hs]

end

/-- R198. -/
theorem exec_read_of_unconfigured {s : State} (hs : s.sess = .unconfigured) (max : Half) :
    exec (.read max) s = .refused .notConfigured := by
  simp only [exec, execRead, hs]

/-- R241. -/
theorem exec_read_of_faulted {s : State} (hs : s.sess = .faulted) (max : Half) :
    exec (.read max) s = .next (respond .schedulingFault 0 [] s) := by
  simp only [exec, execRead, hs]

/-- A READ of a Configured session may fault, but is not refused. -/
theorem readConfigured_ne_refused (max : Half) (s : State) (r : Refusal) : readConfigured max s ≠ .refused r := by
  unfold readConfigured
  split
  · nofun
  · split
    · nofun
    · split <;> nofun

/-- A READ is refused where there is no session, and nowhere else (R198). -/
theorem exec_read_refused_iff {max : Half} {s : State} {r : Refusal} :
    exec (.read max) s = .refused r ↔ r = .notConfigured ∧ s.sess = .unconfigured := by
  cases hs : s.sess with
  | unconfigured => simp [exec_read_of_unconfigured hs, eq_comm (a := r)]
  | configured => simp [exec_read_of_configured hs, readConfigured_ne_refused]
  | faulted => simp [exec_read_of_faulted hs]

/-- TEARDOWN is never refused (R203). -/
theorem exec_teardown_ne_refused (s : State) (r : Refusal) : exec .teardown s ≠ .refused r := by
  rw [exec_teardown_eq]
  nofun

/-- Settles O26: each instruction's refusals are the clauses that name it. -/
theorem stepsAreRefusedExactlyWhen : Obligations.StepsAreRefusedExactlyWhen := by
  intro i s r hwf
  cases i with
  | tick rx ftx frx => simp [exec_tick_ne_refused]
  | configure w1 w2 w3 w4 w5 w6 w7 => simp [exec_configure_refused_iff, pinsValid_eq_true, and_assoc]
  | write n payload =>
    have hlen : payload.length = n.toNat := beq_iff_eq.mp hwf
    simp [exec_write_refused_iff hlen]
  | read max => simp [exec_read_refused_iff]
  | teardown => simp [exec_teardown_ne_refused]

/-! ## Errors (O53) -/

/-- An instruction that answers a next state writes the response port alone, or answers no error. -/
theorem exec_unchanged_or_no_error {i : Instr} {s t : State} (ht : exec i s = .next t) :
    (∃ r, t = { s with rsp := r }) ∨ ∀ r, t.rsp = some r → r.status = .ok := by
  cases i with
  | tick rx ftx frx => simp [exec_tick_rsp ht]
  | configure w1 w2 w3 w4 w5 w6 w7 =>
    obtain ⟨-, rfl | rfl | ⟨-, -, p, -, rfl⟩⟩ := exec_configure_cases ht
    · exact .inl ⟨_, rfl⟩
    · exact .inl ⟨_, rfl⟩
    · exact .inr fun _ hr => by cases hr; rfl
  | write n payload =>
    obtain unchanged | ⟨-, rfl⟩ := exec_write_unchanged_or_appended ht
    · exact .inl unchanged
    · exact .inr fun _ hr => by cases hr; rfl
  | read max =>
    obtain ⟨-, rfl⟩ | ⟨-, ⟨-, rfl⟩ | ⟨-, -, rfl⟩ | ⟨-, -, data, u, -, rfl⟩⟩ := exec_read_cases ht
    · exact .inl ⟨_, rfl⟩
    · exact .inl ⟨_, rfl⟩
    · exact .inl ⟨_, rfl⟩
    · exact .inr fun _ hr => by cases hr; rfl
  | teardown => simp [exec_teardown_rsp ht]

/-- Settles O53. -/
theorem errorsLeaveTheStateUnchanged : Obligations.ErrorsLeaveTheStateUnchanged := by
  intro i s t r ht hr hne
  obtain ⟨r', rfl⟩ | hok := exec_unchanged_or_no_error ht
  · rw [← hr]
  · exact absurd (hok r hr) hne

/-! ## The Faulted session (O25) -/

/-- Of the three writers of the session state TEARDOWN alone acts on a Faulted session (R21). -/
theorem eq_teardown_of_left_faulted {i : Instr} {s t : State} (hs : s.sess = .faulted) (ht : exec i s = .next t)
    (hleft : t.sess ≠ .faulted) : i = .teardown := by
  obtain ⟨e, -⟩ | ⟨hun, -⟩ | ⟨-, -, hi⟩ | ⟨hconf, -⟩ := exec_sess_cases ht
  · exact absurd (e.trans hs) hleft
  · cases hs.symm.trans hun
  · exact hi
  · cases hs.symm.trans hconf

/-- Settles O25. -/
theorem faultedSessionRefusesFurtherOperation : Obligations.FaultedSessionRefusesFurtherOperation := by
  intro s hs
  have hsession : s.sess ≠ .unconfigured := by simp [hs]
  have hstopped : s.sess ≠ .configured := by simp [hs]
  have hteardown := exec_teardown_eq s
  exact ⟨fun _ _ hlen => exec_write_of_faulted hlen hs, exec_read_of_faulted hs,
    fun _ _ _ _ _ _ _ => exec_configure_of_session hsession, exec_tick_of_not_configured hstopped,
    ⟨_, hteardown, exec_teardown_sess hteardown, exec_teardown_rsp hteardown⟩,
    fun _ _ => eq_teardown_of_left_faulted hs⟩

end Sys2Proof.Machine

/-! # After TEARDOWN, between commits, and the loopback (O24, O58, O59, O60)

A stretch of ticks keeps the invariant and only appends to RXB, whatever the stimulus. What the receive engine makes of
a stretch follows from the ticks at which it is idle: an edge starts a byte, and the sample timeline (O57) takes it from
there. The round trip puts this beside the frame timeline (O56), which gives the levels of the wire. -/

namespace Sys2Proof.Machine

/-! ## After TEARDOWN (O24) -/

/-- Outside Configured ticks write the response port alone (R111). -/
theorem runInstrs_ticks_of_not_configured {s : State} (hs : s.sess ≠ .configured)
    (ticks : List (Bool × Bool × Bool)) :
    ∃ r, runInstrs (ticks.map fun x => .tick x.1 x.2.1 x.2.2) s = .next { s with rsp := r } := by
  induction ticks generalizing s with
  | nil => exact ⟨s.rsp, rfl⟩
  | cons x ticks ih =>
    obtain ⟨r, hrun⟩ := ih (s := noResponse s) hs
    exact ⟨r, (runInstrs_cons (exec_tick_of_not_configured hs _ _ _)).trans hrun⟩

/-- Settles O24. -/
theorem noCallbackAfterTeardown : Obligations.NoCallbackAfterTeardown := by
  intro s t ticks ht
  have hts : t.sess ≠ .configured := by simp [exec_teardown_sess ht]
  obtain ⟨r, hrun⟩ := runInstrs_ticks_of_not_configured hts ticks
  refine ⟨_, hrun, rfl, fun hs => ?_⟩
  rw [exec_teardown_of_session hs] at ht
  cases ht
  rfl

/-! ## A falling edge in the commit tick (O58) -/

/-- Settles O58: edge delivery was off in the commit tick, so its edge was masked; in the next tick it is on, and
without a high level before it the kept edge alone can start a byte. -/
theorem edgeInTheCommitTick : Obligations.EdgeInTheCommitTick := by
  intro rx s h hs ha hc h7 hvalid hprev hpending
  obtain ⟨t, ht, -, -, armed, edge, -, -⟩ := h.exec_eighth_tick hs ha hc (congrArg Fin.val h7) false
  have hinv := h.exec_tick ht
  have hts := exec_quiet_tick_sess hs ht
  obtain ⟨-, -, -, -, hperiod, -⟩ := exec_tick_fixed ht
  have hlow : t.rx_prev = false := by
    obtain ⟨u, -, rfl⟩ := exec_quiet_tick_steps hs ht
    rfl
  have hkept : t.edge_pending = s.params.EDGE_LATCH_WHILE_MASKED := by
    obtain ⟨-, -, hrx⟩ := (blockInv_iff_of_configured hs).mp h
    obtain ⟨t', ht', e⟩ := maskedEdgeIsKeptOnlyWithTheParameter false s h hs (hrx.edge.trans (congrArg not ha))
    cases ht.symm.trans ht'
    simpa [hpending, hvalid, hprev] using e
  obtain ⟨u, hu, started, waited⟩ := edgeEventStartsAByte rx t hinv hts edge
  refine ⟨t, u, ht, edge, armed, hu, fun hlatch => ?_, fun hlatch => ?_⟩
  · rw [hlatch] at hkept
    obtain ⟨⟨-, -, -, -, uedge, uarmed, -⟩, -⟩ := waited (by simp [hlow]) hkept
    exact ⟨hkept, hlow, uarmed.trans armed, uedge.trans edge⟩
  · rw [hlatch] at hkept
    obtain ⟨-, -, -, upending, uarmed, ucnt, -⟩ := started (.inr hkept)
    exact ⟨hkept, uarmed, ucnt.trans hperiod, upending⟩

/-! ## A tick of an idle receive engine -/

/-- The edge event has just armed the sample timer of `t`, which holds the bytes that `s` held (R161). -/
structure ByteStarted (s t : State) : Prop where
  armed : t.rx_armed = true
  count : t.rx_count = 0
  cnt : t.rx_cnt = t.bit_period
  len : t.rx_len = s.rx_len
  cells : SameCells s.RXB t.RXB

theorem SameReceiveButCount.trans {s t u : State} (h : SameReceiveButCount s t) (k : SameReceiveButCount t u) :
    SameReceiveButCount s u := by
  obtain ⟨cells, len, acc, count, edge, armed, pending⟩ := h
  obtain ⟨cells', len', acc', count', edge', armed', pending'⟩ := k
  exact ⟨fun a => (cells' a).trans (cells a), len'.trans len, acc'.trans acc, count'.trans count, edge'.trans edge,
    armed'.trans armed, pending'.trans pending⟩

section

variable {s : State} (h : BlockInv s) (hs : s.sess = .configured)

include h hs

/-- R161. -/
theorem BlockInv.exec_tick_of_edge {rx : Bool} (ht : edgeTaken s rx = true) :
    ∃ t, Machine.exec (quietTick rx) s = .next t ∧ ByteStarted s t := by
  have ⟨he, _⟩ := (edgeTaken_eq_true s rx).mp ht
  obtain ⟨u, ⟨⟨cells, len, -⟩, -⟩, hexec⟩ := h.exec_idle_tick hs he rx
  obtain ⟨-, -, -, -, hperiod, -⟩ := exec_tick_fixed hexec
  rw [edgeStep_of_taken ht] at hexec hperiod
  exact ⟨_, hexec, rfl, rfl, hperiod.symm, len, cells⟩

/-- With the sample timer off edge delivery is on (R50 item 8), so no edge is masked. -/
theorem BlockInv.exec_tick_of_no_edge (ha : s.rx_armed = false) {rx : Bool} (ht : edgeTaken s rx = false) :
    ∃ t, Machine.exec (quietTick rx) s = .next t ∧ SameReceiveButCount s t := by
  obtain ⟨-, -, hrx⟩ := (blockInv_iff_of_configured hs).mp h
  have he : s.edge_en = true := hrx.edge.trans (congrArg not ha)
  obtain ⟨u, ⟨hsame, -⟩, hexec⟩ := h.exec_idle_tick hs he rx
  rw [edgeStep_of_no_edge he ht] at hexec
  exact ⟨_, hexec, hsame⟩

end

/-! ## No commit within 8·P ticks (O59) -/

/-- Settles O59: up to its edge event a byte has no sample, and the edge event leaves fewer than the 8·P ticks in which
the byte is in progress. -/
theorem commitsAreMoreThanEightPeriodsApart : Obligations.CommitsAreMoreThanEightPeriodsApart := by
  intro s levels h hs ha hlen
  induction levels generalizing s with
  | nil => exact ⟨s, rfl, rfl, fun _ => rfl⟩
  | cons rx levels ih =>
    rw [List.length_cons] at hlen
    cases ht : edgeTaken s rx with
    | false =>
      obtain ⟨v, hexec, cells, len, -, -, -, armed, -⟩ := h.exec_tick_of_no_edge hs ha ht
      obtain ⟨-, -, -, -, hperiod, -⟩ := exec_tick_fixed hexec
      obtain ⟨t, hrun, len', cells'⟩ :=
        ih v (h.exec_tick hexec) (exec_quiet_tick_sess hs hexec) (armed.trans ha) (by rw [hperiod]; omega)
      exact ⟨t, (runInstrs_cons hexec).trans hrun, len'.trans len, fun a => (cells' a).trans (cells a)⟩
    | true =>
      obtain ⟨v, hexec, armed, count, cnt, len, cells⟩ := h.exec_tick_of_edge hs ht
      obtain ⟨-, -, -, -, hperiod, -⟩ := exec_tick_fixed hexec
      obtain ⟨t, hrun, -, -, hsampling⟩ := (h.exec_tick hexec).runTicks_sampling (exec_quiet_tick_sess hs hexec)
        (.of_edge armed count cnt) levels (by rw [hperiod]; omega)
      exact ⟨t, (runInstrs_cons hexec).trans hrun, hsampling.len.trans len,
        fun a => (hsampling.cells a).trans (cells a)⟩

/-! ## What every stretch of ticks keeps -/

/-- `t` is a state that the ticks `levels` of the Configured session `s` can lead to: its bytes still stand in RXB, and
the edge detector holds the last level (R167). -/
structure AfterTicks (s : State) (levels : List Bool) (t : State) : Prop where
  inv : BlockInv t
  sess : t.sess = .configured
  params : t.params = s.params
  period : t.bit_period = s.bit_period
  prev : t.rx_prev = levels.getLast?.getD s.rx_prev
  prev_valid : s.rx_prev_valid = true ∨ levels ≠ [] → t.rx_prev_valid = true
  len_le : s.rx_len ≤ t.rx_len
  cells : ∀ a, a < s.rx_len → Memory.read t.RXB a = Memory.read s.RXB a

/-- A tick leaves RXB or writes the cell behind the valid ones (R165). -/
theorem BlockInv.afterTicks_singleton {s t : State} {rx : Bool} (h : BlockInv s) (hs : s.sess = .configured)
    (ht : Machine.exec (quietTick rx) s = .next t) : AfterTicks s [rx] t := by
  obtain ⟨⟨hparams, -⟩, -, -, -, hperiod, -⟩ := exec_tick_fixed ht
  have hbuffer : s.rx_len ≤ t.rx_len ∧ ∀ a, a < s.rx_len → Memory.read t.RXB a = Memory.read s.RXB a := by
    obtain ⟨e, len⟩ | ⟨-, -, e, len⟩ := exec_tick_buffer ht
    · exact ⟨Nat.le_of_eq len.symm, fun a _ => by rw [e]⟩
    · exact ⟨by omega, fun a ha => by rw [e, read_write_other _ _ (Nat.ne_of_lt ha)]⟩
  obtain ⟨len_le, cells⟩ := hbuffer
  obtain ⟨u, -, e⟩ := exec_quiet_tick_steps hs ht
  exact {
    inv := h.exec_tick ht
    sess := exec_quiet_tick_sess hs ht
    params := hparams
    period := hperiod
    prev := by rw [e]; rfl
    prev_valid := fun _ => by rw [e]; rfl
    len_le := len_le
    cells := cells }

theorem AfterTicks.cons {s t u : State} {rx : Bool} {levels : List Bool} (h : AfterTicks s [rx] t)
    (k : AfterTicks t levels u) : AfterTicks s (rx :: levels) u where
  inv := k.inv
  sess := k.sess
  params := k.params.trans h.params
  period := k.period.trans h.period
  prev := by simp [k.prev, h.prev, List.getLast?_cons]
  prev_valid := fun _ => k.prev_valid (.inl (h.prev_valid (.inr (List.cons_ne_nil _ _))))
  len_le := Nat.le_trans h.len_le k.len_le
  cells := fun a ha => (k.cells a (Nat.lt_of_lt_of_le ha h.len_le)).trans (h.cells a ha)

theorem BlockInv.afterTicks {s t : State} {levels : List Bool} (h : BlockInv s) (hs : s.sess = .configured)
    (hrun : runTicks levels s = .next t) : AfterTicks s levels t := by
  induction levels generalizing s with
  | nil =>
    cases hrun
    exact ⟨h, hs, rfl, rfl, rfl, fun hv => hv.resolve_right (absurd rfl), Nat.le_refl _, fun _ _ => rfl⟩
  | cons rx levels ih =>
    obtain ⟨u, -, hexec⟩ := h.exec_quiet_tick hs rx
    rw [runTicks, List.map_cons, quietTick, runInstrs_cons hexec] at hrun
    have hfirst := h.afterTicks_singleton hs hexec
    exact hfirst.cons (ih hfirst.inv hfirst.sess hrun)

/-- Ticks behind a stretch of ticks that completes. -/
theorem runTicks_append {before : List Bool} {s t : State} (h : runTicks before s = .next t) (levels : List Bool) :
    runTicks (before ++ levels) s = runTicks levels t := by
  rw [runTicks] at h
  simp only [runTicks, List.map_append, runInstrs_append, h]

/-! ## One frame at an idle receive engine -/

theorem BlockInv.not_pending {s : State} (h : BlockInv s) (hs : s.sess = .configured)
    (hlatch : s.params.EDGE_LATCH_WHILE_MASKED = false) : s.edge_pending = false := by
  obtain ⟨-, -, hrx⟩ := (blockInv_iff_of_configured hs).mp h
  exact eq_false_of_ne_true fun hp => absurd ((hrx.pending hp).symm.trans hlatch) nofun

/-- A receive engine at rest, which keeps no masked edge. -/
structure RxResting (s : State) : Prop where
  inv : BlockInv s
  sess : s.sess = .configured
  unlatched : s.params.EDGE_LATCH_WHILE_MASKED = false
  off : s.rx_armed = false

section

variable {s : State} (h : RxResting s)

include h

theorem RxResting.edgeTaken_of_not_fall {x : Bool} (hno : fall s x = false) : edgeTaken s x = false := by
  simp [edgeTaken, hno, h.inv.not_pending h.sess h.unlatched]

theorem RxResting.edgeTaken_of_fall {x : Bool} (hfall : fall s x = true) : edgeTaken s x = true := by
  obtain ⟨-, -, hrx⟩ := (blockInv_iff_of_configured h.sess).mp h.inv
  simp only [edgeTaken, hfall, hrx.edge, h.off]
  rfl

end

/-- Ticks at one level, which is no fall, start no byte. -/
theorem RxResting.runTicks_level {s : State} (h : RxResting s) {x : Bool} (hno : fall s x = false) {levels : List Bool}
    (hlevels : ∀ y ∈ levels, y = x) : ∃ t, runTicks levels s = .next t ∧ RxResting t ∧ SameReceiveButCount s t := by
  induction levels generalizing s with
  | nil => exact ⟨s, rfl, h, fun _ => rfl, rfl, rfl, rfl, rfl, rfl, rfl⟩
  | cons y levels ih =>
    obtain ⟨rfl, hrest⟩ := List.forall_mem_cons.mp hlevels
    obtain ⟨v, hexec, hsame⟩ := h.inv.exec_tick_of_no_edge h.sess h.off (h.edgeTaken_of_not_fall hno)
    have hv := h.inv.afterTicks_singleton h.sess hexec
    have ⟨_, _, _, _, _, armed, _⟩ := hsame
    have hno' : fall v y = false := by simp [fall, hv.prev]
    obtain ⟨t, hrun, ht, hsame'⟩ :=
      ih ⟨hv.inv, hv.sess, hv.params ▸ h.unlatched, armed.trans h.off⟩ hno' hrest
    exact ⟨t, (runInstrs_cons hexec).trans hrun, ht, hsame.trans hsame'⟩

section

variable {s : State} (h : RxResting s)

include h

/-- A start bit behind a high line starts a byte (R160, R161). -/
theorem RxResting.runTicks_start_bit {gap : List Bool} (hgap : ∀ y ∈ gap, y = true) (hne : gap ≠ []) :
    ∃ t, runTicks (gap ++ [false]) s = .next t ∧ t.rx_armed = true ∧ t.rx_count = 0 ∧ t.rx_cnt = t.bit_period ∧
      t.rx_len = s.rx_len := by
  obtain ⟨v, hrun, hv, -, len, -⟩ := h.runTicks_level (x := true) (by simp [fall]) hgap
  have hafter := h.inv.afterTicks h.sess hrun
  have hprev : v.rx_prev = true := by
    rw [hafter.prev, List.getLast?_eq_some_getLast hne]
    exact hgap _ (List.getLast_mem hne)
  have hfall : fall v false = true := (fall_eq_true v false).mpr ⟨hafter.prev_valid (.inr hne), hprev, rfl⟩
  obtain ⟨t, hexec, armed, count, cnt, len', -⟩ := hv.inv.exec_tick_of_edge hv.sess (hv.edgeTaken_of_fall hfall)
  exact ⟨t, (runTicks_concat hrun).trans hexec, armed, count, cnt, len'.trans len⟩

/-- One frame as it comes in: the high line before it, the start bit's first tick, the 8·P ticks of the samples (R168),
and the ticks that are left of the last data bit, in which the line holds its level. -/
theorem RxResting.runTicks_frame {b : Byte} {gap samples rest : List Bool} (hroom : s.rx_len < s.params.RX_CAP)
    (hgap : ∀ y ∈ gap, y = true) (hne : gap ≠ []) (hlen : samples.length = 8 * s.bit_period)
    (hbits : ∀ k, k < 8 → samples[(k + 1) * s.bit_period - 1]? = some (b.getLsbD k))
    (hrest : ∀ y ∈ rest, y = b.getLsbD 7) :
    ∃ t, runTicks (gap ++ [false] ++ samples ++ rest) s = .next t ∧ t.rx_armed = false ∧ t.rx_len = s.rx_len + 1 ∧
      Memory.read t.RXB s.rx_len = some b := by
  obtain ⟨u, hstart, armed, count, cnt, len⟩ := h.runTicks_start_bit hgap hne
  have hu := h.inv.afterTicks h.sess hstart
  have ⟨_, heighth⟩ := sampleTimeline u samples hu.inv hu.sess armed count cnt
  obtain ⟨v, b', hsamples, off, -, hbits', hstored, -⟩ := heighth (hu.period.symm ▸ hlen)
  obtain ⟨vlen, vbyte⟩ := hstored (by rwa [len, hu.params])
  obtain rfl : b' = b := BitVec.eq_of_getLsbD_eq fun k hk =>
    Option.some.inj ((hbits' k hk).symm.trans (hu.period.symm ▸ hbits k hk))
  have hv := hu.inv.afterTicks hu.sess hsamples
  have hrested : RxResting v := ⟨hv.inv, hv.sess, by rw [hv.params, hu.params, h.unlatched], off⟩
  have hlast : v.rx_prev = b'.getLsbD 7 := by
    rw [hv.prev, List.getLast?_eq_getElem?, hlen, hbits 7 (by omega)]
    rfl
  obtain ⟨t, hrun, ht, cells, tlen, -⟩ := hrested.runTicks_level (by simp [fall, hlast]) hrest
  refine ⟨t, ?_, ht.off, by rw [tlen, vlen, len], by rw [cells, ← len, vbyte]⟩
  rw [List.append_assoc (gap ++ [false]), runTicks_append hstart, runTicks_append hsamples, hrun]

end

/-! ## The levels of a run, frame by frame -/

/-- The levels of the transmit pin after the ticks `d` to `d + m - 1` of the run that starts in `s`. -/
def frameLevels (s : State) (d m : Nat) : List Bool := (List.range' d m).map (frameLevel s)

theorem frameLevels_append (s : State) (d m n : Nat) :
    frameLevels s d (m + n) = frameLevels s d m ++ frameLevels s (d + m) n := by
  rw [frameLevels, ← List.range'_append_1, List.map_append]
  rfl

theorem frameLevels_length (s : State) (d m : Nat) : (frameLevels s d m).length = m := by
  simp [frameLevels]

theorem frameLevels_getElem? (s : State) (d : Nat) {m i : Nat} (hi : i < m) :
    (frameLevels s d m)[i]? = some (frameLevel s (d + i)) := by
  simp [frameLevels, hi]

theorem forall_mem_frameLevels {s : State} {d m : Nat} {x : Bool} (h : ∀ i, i < m → frameLevel s (d + i) = x) :
    ∀ y ∈ frameLevels s d m, y = x := by
  intro y hy
  obtain ⟨e, he, rfl⟩ := List.mem_map.mp hy
  obtain ⟨hlo, hhi⟩ := List.mem_range'_1.mp he
  obtain ⟨i, rfl⟩ := Nat.exists_eq_add_of_le hlo
  exact h i (by omega)

section

variable {s : State} {j i : Nat} (hi : i < s.bit_period)

include hi

/-- Slot `q` is made of the P ticks from tick P·q on (R139). -/
theorem slot_of_tick (q : Nat) : (s.bit_period * q + i) / s.bit_period = q := by
  rw [Nat.mul_add_div (by omega), Nat.div_eq_of_lt hi, Nat.add_zero]

/-- Before each frame the line is high: it idles, or holds the stop bit of the frame before. -/
theorem frameLevel_before_frame : frameLevel s (s.bit_period * (10 * j) + i) = true := by
  cases j with
  | zero => exact frameLevel_idle (slot_of_tick hi 0)
  | succ j => exact frameLevel_stop (q := 10 * j + 9) (slot_of_tick hi _) (by omega)

theorem frameLevel_of_start_bit : frameLevel s (s.bit_period * (10 * j + 1) + i) = false :=
  frameLevel_start (q := 10 * j) (slot_of_tick hi _) (by omega)

theorem frameLevel_of_data_bit {k : Nat} (hk : k < 8) {b : Byte} (hb : Memory.read s.TXB j = some b) :
    frameLevel s (s.bit_period * (10 * j + (k + 2)) + i) = b.getLsbD k := by
  have hbyte : (10 * j + (k + 1)) / 10 = j := by omega
  exact frameLevel_data (q := 10 * j + (k + 1)) (slot_of_tick hi _) (by omega) hk (hbyte.symm ▸ hb)

end

/-! The 10·P ticks from the line's high level before frame `j` to the end of its last data bit, cut where the receive
engine acts. -/

section

variable {s : State} (hp : 1 ≤ s.bit_period) (j : Nat)

include hp

theorem frameLevels_frame :
    frameLevels s (s.bit_period * (10 * j)) (10 * s.bit_period) =
      frameLevels s (s.bit_period * (10 * j)) s.bit_period ++ [false] ++
        frameLevels s (s.bit_period * (10 * j + 1) + 1) (8 * s.bit_period) ++
        frameLevels s (s.bit_period * (10 * j + 9) + 1) (s.bit_period - 1) := by
  have hstart : [false] = frameLevels s (s.bit_period * (10 * j + 1)) 1 :=
    congrArg (fun x => [x]) (frameLevel_of_start_bit (i := 0) hp).symm
  have h1 : s.bit_period * (10 * j + 1) = s.bit_period * (10 * j) + s.bit_period := Nat.mul_succ _ _
  have h9 : s.bit_period * (10 * j + 9) = s.bit_period * (10 * j) + 9 * s.bit_period := by
    rw [Nat.mul_add, Nat.mul_comm _ 9]
  have hm : 10 * s.bit_period = s.bit_period + (1 + (8 * s.bit_period + (s.bit_period - 1))) := by omega
  have hrest : s.bit_period * (10 * j) + s.bit_period + 1 + 8 * s.bit_period =
      s.bit_period * (10 * j) + 9 * s.bit_period + 1 := by omega
  rw [hstart, h1, h9, hm, frameLevels_append, frameLevels_append, frameLevels_append, hrest, List.append_assoc,
    List.append_assoc]

/-- Sample `k` of the frame is in the first tick of data bit `k` (R168). -/
theorem frameLevels_sample {b : Byte} (hb : Memory.read s.TXB j = some b) {k : Nat} (hk : k < 8) :
    (frameLevels s (s.bit_period * (10 * j + 1) + 1) (8 * s.bit_period))[(k + 1) * s.bit_period - 1]? =
      some (b.getLsbD k) := by
  have hpos : 1 ≤ (k + 1) * s.bit_period := Nat.mul_pos (Nat.succ_pos k) hp
  have hle : (k + 1) * s.bit_period ≤ 8 * s.bit_period := Nat.mul_le_mul_right _ hk
  have hslot : s.bit_period * (10 * j + (k + 2)) = s.bit_period * (10 * j + 1) + (k + 1) * s.bit_period := by
    rw [show 10 * j + (k + 2) = 10 * j + 1 + (k + 1) by omega, Nat.mul_add _ _ (k + 1), Nat.mul_comm _ (k + 1)]
  have hbit := frameLevel_of_data_bit (i := 0) hp hk hb
  rw [hslot] at hbit
  rw [frameLevels_getElem? _ _ (by omega), ← hbit]
  congr 2
  omega

end

/-! ## The loop -/

/-- While the run lasts the loopback wire carries the levels of the frame timeline (R96, R139). -/
theorem RunAfter.runLoop_eq_runTicks {s t : State} {d : Nat} (h : RunAfter s d t) (ht : BlockInv t)
    (hts : t.sess = .configured) {m : Nat} (hm : d + m ≤ 10 * s.bit_period * s.tx_len) :
    runLoop m t = Machine.runTicks (frameLevels s d m) t := by
  induction m generalizing t d with
  | zero => rfl
  | succ m ih =>
    obtain ⟨hset, htx, -⟩ := (blockInv_iff_of_configured hts).mp ht
    have hlevel : loopLevel t = frameLevel s d := by
      obtain ⟨q, hsending⟩ | ended := h
      · simpa [loopLevel, pinLevel, hset.driven] using hsending.out d (hsending.slot htx)
      · have := ended.last
        omega
    obtain ⟨t', hexec, ht', hts', hafter⟩ := h.exec_quiet_tick ht hts (by omega) (frameLevel s d)
    have hcons : frameLevels s d (m + 1) = frameLevel s d :: frameLevels s (d + 1) m := rfl
    rw [hcons, Machine.runTicks, List.map_cons, runInstrs_cons hexec]
    simp only [runLoop, hlevel, hexec]
    exact ih hafter ht' hts' (by omega)

/-! ## The round trip (O60) -/

/-- `t` holds the first `j` bytes of the run that starts in `s`, behind the bytes that `s` held, with the receive engine
at rest. -/
structure Received (s : State) (j : Nat) (t : State) : Prop where
  resting : RxResting t
  params : t.params = s.params
  period : t.bit_period = s.bit_period
  len : t.rx_len = s.rx_len + j
  bytes : ∀ i, i < j → Memory.read t.RXB (s.rx_len + i) = Memory.read s.TXB i
  cells : ∀ a, a < s.rx_len → Memory.read t.RXB a = Memory.read s.RXB a

/-- The 10·P ticks from frame `j` on bring in byte `j`. -/
theorem Received.runTicks_frame {s t : State} {j : Nat} (h : Received s j t) (hp : 1 ≤ s.bit_period)
    (hroom : s.rx_len + j < s.params.RX_CAP) {b : Byte} (hb : Memory.read s.TXB j = some b) :
    ∃ t', runTicks (frameLevels s (s.bit_period * (10 * j)) (10 * s.bit_period)) t = .next t' ∧
      Received s (j + 1) t' := by
  have hgap := forall_mem_frameLevels (s := s) (d := s.bit_period * (10 * j)) fun i hi => frameLevel_before_frame hi
  have hrest : ∀ y ∈ frameLevels s (s.bit_period * (10 * j + 9) + 1) (s.bit_period - 1), y = b.getLsbD 7 :=
    forall_mem_frameLevels fun i hi => by
      rw [Nat.add_assoc]
      exact frameLevel_of_data_bit (by omega) (by omega) hb
  have hne : frameLevels s (s.bit_period * (10 * j)) s.bit_period ≠ [] :=
    List.ne_nil_of_length_pos (by rwa [frameLevels_length])
  have hlen : (frameLevels s (s.bit_period * (10 * j + 1) + 1) (8 * s.bit_period)).length = 8 * t.bit_period := by
    rw [frameLevels_length, h.period]
  obtain ⟨t', hrun, off, len, byte⟩ := h.resting.runTicks_frame (by rwa [h.len, h.params]) hgap hne hlen
    (fun k hk => by rw [h.period]; exact frameLevels_sample hp j hb hk) hrest
  rw [← frameLevels_frame hp j] at hrun
  have hafter := h.resting.inv.afterTicks h.resting.sess hrun
  refine ⟨t', hrun, ?_⟩
  exact {
    resting := ⟨hafter.inv, hafter.sess, hafter.params ▸ h.resting.unlatched, off⟩
    params := hafter.params.trans h.params
    period := hafter.period.trans h.period
    len := by rw [len, h.len, Nat.add_assoc]
    bytes := fun i hi => by
      obtain hlt | rfl := Nat.lt_succ_iff_lt_or_eq.mp hi
      · rw [hafter.cells _ (by rw [h.len]; omega), h.bytes i hlt]
      · rw [← h.len, byte, hb]
    cells := fun a ha => (hafter.cells a (by rw [h.len]; omega)).trans (h.cells a ha) }

/-- From a receive engine at rest, the frames of the run bring in its bytes one after another. -/
theorem RxResting.received {s : State} (h : RxResting s) (hcap : s.rx_len + s.tx_len ≤ s.params.RX_CAP) {j : Nat}
    (hj : j ≤ s.tx_len) :
    ∃ t, runTicks (frameLevels s 0 (s.bit_period * (10 * j))) s = .next t ∧ Received s j t := by
  obtain ⟨hset, htx, -⟩ := (blockInv_iff_of_configured h.sess).mp h.inv
  induction j with
  | zero => exact ⟨s, rfl, h, rfl, rfl, rfl, nofun, fun _ _ => rfl⟩
  | succ j ih =>
    obtain ⟨t, hrun, ht⟩ := ih (by omega)
    obtain ⟨b, hb⟩ := Option.isSome_iff_exists.mp (htx.cells j hj)
    obtain ⟨t', hframe, ht'⟩ := ht.runTicks_frame hset.period_pos (by omega) hb
    refine ⟨t', ?_, ht'⟩
    have hlen : s.bit_period * (10 * (j + 1)) = s.bit_period * (10 * j) + 10 * s.bit_period := by
      rw [Nat.mul_succ, Nat.mul_add, Nat.mul_comm _ 10]
    rw [hlen, frameLevels_append, Nat.zero_add, runTicks_append hrun, hframe]

/-- A run from START on, looped back to its end: it is over and its bytes are received. -/
theorem RxResting.runLoop_of_run {s : State} (h : RxResting s) (hbusy : s.tx_busy = true) (hpos : s.tx_pos = .start)
    (hrd : s.tx_rd = 0) (hcnt : s.tx_cnt = s.bit_period) (hout : s.tx_out = true)
    (hcap : s.rx_len + s.tx_len ≤ s.params.RX_CAP) :
    ∃ t, runLoop (10 * s.bit_period * s.tx_len) s = .next t ∧ t.tx_busy = false ∧ Received s s.tx_len t := by
  have hstart : RunAfter s 0 s := .inl ⟨0, .of_start hbusy hpos hrd hcnt hout⟩
  have hloop := hstart.runLoop_eq_runTicks h.inv h.sess (Nat.le_of_eq (Nat.zero_add _))
  have hlen : 10 * s.bit_period * s.tx_len = s.bit_period * (10 * s.tx_len) := by
    rw [Nat.mul_left_comm, Nat.mul_assoc]
  obtain ⟨t, hrun, ht⟩ := h.received hcap (Nat.le_refl _)
  obtain ⟨t', hrun', -, hend⟩ := frameTimeline s (frameLevels s 0 (s.bit_period * (10 * s.tx_len))) h.inv h.sess hbusy
    hpos hrd hcnt hout (Nat.le_of_eq ((frameLevels_length _ _ _).trans hlen.symm))
  cases hrun.symm.trans hrun'
  refine ⟨t, by rw [hloop, hlen, hrun], ?_, ht⟩
  rw [hend, frameLevels_length, hlen, decide_eq_false (Nat.lt_irrefl _)]

/-- Settles O60: the WRITE begins a run of the payload alone and leaves the receive engine at rest. -/
theorem loopbackRoundTrip : Obligations.LoopbackRoundTrip := by
  intro n payload s h hs hlatch hidle _ hoff hlen hn hcap hroom hx
  obtain ⟨-, htx, -⟩ := (blockInv_iff_of_configured hs).mp h
  obtain ⟨hempty, hrd, -⟩ := htx.idle hidle
  obtain ⟨m, hcells, -, -, hstart⟩ :=
    writeAppendsAndStartsWhenIdle n payload s hs hlen hn (by omega) hx
  have hexec := hstart hidle
  rw [hempty, Nat.zero_add] at hexec
  have hresting : RxResting _ := ⟨h.exec_write hexec, hs, hlatch, hoff⟩
  obtain ⟨u, hloop, hend, hreceived⟩ := hresting.runLoop_of_run rfl rfl hrd rfl rfl hroom
  refine ⟨_, u, hexec, hloop, hend, hreceived.len, fun i hi => ?_, hreceived.cells⟩
  have hbyte := hcells i (by omega)
  rw [hempty, Nat.zero_add] at hbyte
  exact (hreceived.bytes i hi).trans hbyte

end Sys2Proof.Machine
